-- ==== Sys2Proof/Word.lean ====
section
/-! DEFINITION. The block's one word type: the byte of `tx_data` (20_memory.md R35, R46). Bit 0 is the least
significant bit (00_scope.md R11). Every value of the block is unsigned. -/

namespace Sys2Proof

/-- One byte of the TX port: `tx_data[7:0]`, the code of the character sent (R46). -/
abbrev Byte := BitVec 8

end Sys2Proof
end

