-- ==== Sys2Proof/Config.lean ====
section
/-! DEFINITION. What the spec leaves to the implementation or to the environment, as constants with no body, and the
constants of 00_scope.md R8 and R9 that a model must not make parameters. -/

namespace Sys2Proof

/-- PREV_INIT, the reset value of the remembered level (00_scope.md R7; 92_eei_decisions.md D4: OPEN). No value of it
can be proved: a claim holds for both. Log entry 1. -/
opaque Config.prevInit : Bool

/-- STARTUP_DELAY_CYCLES, the length of the startup wait (00_scope.md R7; D5: OPEN). Log entry 1. -/
opaque Config.startupDelayCycles : Nat

/-- The bit the block samples from `rst` at clock edge number `n` when no level is given there, or when the level given
breaks setup or hold (20_memory.md R53: a draw). Log entry 2. -/
opaque Config.freeRst : Nat → Bool

/-- The bit sampled from `sync_in` at clock edge number `n` when no level is given there, or when it breaks setup or
hold (20_memory.md R38: a draw, 0 or 1; a model must not pick one). Log entry 2. -/
opaque Config.freeSync : Nat → Bool

/-- The bit sampled from `tx_ready` at clock edge number `n` when no level is given there (00_scope.md R6;
93_implementation_defined.md I9: any value per edge). Log entry 2. -/
opaque Config.freeReady : Nat → Bool

/-- CTR_MOD of R8: the counter counts modulo 10^9. -/
def ctrMod : Nat := 1000000000

/-- BANNER_LEN of R9. -/
def bannerLen : Nat := 21

/-- FRAME_LEN of R9. -/
def frameLen : Nat := 13

end Sys2Proof
end

