-- ==== Sys2Proof/Syntax.lean ====
section
/-! DEFINITION. The ten operations of spec/opcode_table.json, and the condition word that selects one of them at each
clock edge (30_encoding.md R57 to R61). -/

namespace Sys2Proof

/-- One constructor per row of spec/opcode_table.json, in the table's order. An operation has no operands in text
(R76): every operand is a state field or an input of the edge. -/
inductive Instr
  | reset
  | delayTick
  | delayDone
  | txStall
  | bannerSend
  | bannerLast
  | pollIdle
  | pollEdge
  | emitSend
  | emitLast
  deriving DecidableEq, Repr

/-- The FSM phase, the block's program counter (10_state.md R20). All four encodings are used. -/
inductive Phase
  | delay
  | banner
  | poll
  | emit
  deriving DecidableEq, Repr

/-- The condition word `c[5:0] = {in.rst, phase[1:0], edge, in.ready, last}` by its fields (R60). -/
structure CondWord where
  rst : Bool
  phase : Phase
  edge : Bool
  ready : Bool
  last : Bool
  deriving DecidableEq, Repr

/-- A condition word read as a row of the table: the operation, and the values of the don't-care letters of the row's
pattern, each at its bit of the word and 0 at every bit the row fixes (R61). -/
structure CodedOp where
  op : Instr
  letters : BitVec 6
  deriving DecidableEq, Repr

end Sys2Proof
end

