-- ==== Sys2Proof/WellFormed.lean ====
section
/-! DEFINITION. When a `CodedOp` is well formed: it gives letter values only where its row has a letter. -/

namespace Sys2Proof

/-- The bits of the condition word that hold a letter in the row's pattern, that is, the row's don't-care bits
("dont_care" of spec/opcode_table.json; the patterns of 30_encoding.md R61). -/
def Instr.letterBits : Instr → BitVec 6
  | .reset => 0b011111#6
  | .delayTick => 0b000110#6
  | .delayDone => 0b000110#6
  | .txStall => 0b010101#6
  | .bannerSend => 0b000100#6
  | .bannerLast => 0b000100#6
  | .pollIdle => 0b000011#6
  | .pollEdge => 0b000011#6
  | .emitSend => 0b000100#6
  | .emitLast => 0b000100#6

/-- A coded operation is well formed when it sets no bit that its row fixes. -/
def CodedOp.wellFormed (c : CodedOp) : Bool :=
  c.letters &&& ~~~ c.op.letterBits == 0#6

end Sys2Proof
end

