-- ==== Sys2Proof/Decode.lean ====
section
/-! DEFINITION. The selection table of 30_encoding.md R61 (spec/opcode_table.json), the decoder made from its patterns,
total on any bytes and rejecting by name, and the encoder made from its match column. -/

namespace Sys2Proof

/-- One position of a pattern of R61: a fixed bit, or a field letter, which is a don't-care position. -/
inductive Trit
  | zero
  | one
  | letter
  deriving DecidableEq, Repr

/-- A row of R61: the operation and its pattern, `c[5]` first. -/
structure Row where
  op : Instr
  rst : Trit
  phase1 : Trit
  phase0 : Trit
  edge : Trit
  ready : Trit
  last : Trit
  deriving DecidableEq, Repr

def Trit.fits : Trit → Bool → Bool
  | .zero, b => !b
  | .one, b => b
  | .letter, _ => true

/-- `phase[1]` of the encoding of R20: 00 DELAY, 01 BANNER, 10 POLL, 11 EMIT. -/
def Phase.bit1 : Phase → Bool
  | .delay => false
  | .banner => false
  | .poll => true
  | .emit => true

/-- `phase[0]` of the encoding of R20. -/
def Phase.bit0 : Phase → Bool
  | .delay => false
  | .banner => true
  | .poll => false
  | .emit => true

/-- The phase of an encoding `phase[1:0]` (R20: all four are used). -/
def Phase.ofBits : Bool → Bool → Phase
  | false, false => .delay
  | false, true => .banner
  | true, false => .poll
  | true, true => .emit

/-- The pattern column of R61, startup rows and RESET. -/
def startupRows : List Row :=
  [ ⟨.reset,      .one,  .letter, .letter, .letter, .letter, .letter⟩,   -- 1ppetl
    ⟨.delayTick,  .zero, .zero,   .zero,   .letter, .letter, .zero⟩,     -- 000et0
    ⟨.delayDone,  .zero, .zero,   .zero,   .letter, .letter, .one⟩,      -- 000et1
    ⟨.txStall,    .zero, .letter, .one,    .letter, .zero,   .letter⟩,   -- 0p1e0l
    ⟨.bannerSend, .zero, .zero,   .one,    .letter, .one,    .zero⟩,     -- 001e10
    ⟨.bannerLast, .zero, .zero,   .one,    .letter, .one,    .one⟩ ]     -- 001e11

/-- The pattern column of R61, polling rows. -/
def pollingRows : List Row :=
  [ ⟨.pollIdle,   .zero, .one,    .zero,   .zero,   .letter, .letter⟩,   -- 0100tl
    ⟨.pollEdge,   .zero, .one,    .zero,   .one,    .letter, .letter⟩,   -- 0101tl
    ⟨.emitSend,   .zero, .one,    .one,    .letter, .one,    .zero⟩,     -- 011e10
    ⟨.emitLast,   .zero, .one,    .one,    .letter, .one,    .one⟩ ]     -- 011e11

/-- The ten rows of R61. -/
def rows : List Row := startupRows ++ pollingRows

def Row.fits (r : Row) (c : CondWord) : Bool :=
  r.rst.fits c.rst && r.phase1.fits c.phase.bit1 && r.phase0.fits c.phase.bit0 && r.edge.fits c.edge &&
    r.ready.fits c.ready && r.last.fits c.last

/-- The operation a condition word selects: the row whose pattern it fits (R57, R61). -/
def decode (c : CondWord) : Option Instr :=
  (rows.find? (fun r => r.fits c)).map (fun r => r.op)

/-- The mask column of R61. -/
def Instr.mask : Instr → BitVec 6
  | .reset => 0x20#6
  | .delayTick => 0x39#6
  | .delayDone => 0x39#6
  | .txStall => 0x2A#6
  | .bannerSend => 0x3B#6
  | .bannerLast => 0x3B#6
  | .pollIdle => 0x3C#6
  | .pollEdge => 0x3C#6
  | .emitSend => 0x3B#6
  | .emitLast => 0x3B#6

/-- The match column of R61. -/
def Instr.matchValue : Instr → BitVec 6
  | .reset => 0x20#6
  | .delayTick => 0x00#6
  | .delayDone => 0x01#6
  | .txStall => 0x08#6
  | .bannerSend => 0x0A#6
  | .bannerLast => 0x0B#6
  | .pollIdle => 0x10#6
  | .pollEdge => 0x14#6
  | .emitSend => 0x1A#6
  | .emitLast => 0x1B#6

/-- The six bits of a condition word (R60): `c[5]` rst, `c[4:3]` phase, `c[2]` edge, `c[1]` tx_ready, `c[0]` last. -/
def CondWord.toBits (c : CondWord) : BitVec 6 :=
  BitVec.ofBool c.rst ++ BitVec.ofBool c.phase.bit1 ++ BitVec.ofBool c.phase.bit0 ++ BitVec.ofBool c.edge ++
    BitVec.ofBool c.ready ++ BitVec.ofBool c.last

/-- The fields of a six-bit condition word (R60). -/
def CondWord.ofBits (w : BitVec 6) : CondWord :=
  { rst := w.getLsbD 5
    phase := Phase.ofBits (w.getLsbD 4) (w.getLsbD 3)
    edge := w.getLsbD 2
    ready := w.getLsbD 1
    last := w.getLsbD 0 }

/-- The operation a six-bit word selects. -/
def decodeWord (w : BitVec 6) : Option Instr :=
  decode (CondWord.ofBits w)

/-- Why bytes are no condition word. Six bits travel in one byte, bits 7 and 6 zero (log entry 7). -/
inductive DecodeError
  /-- There is no byte to read. Safe: nothing is decoded. -/
  | noByte
  /-- Bit 7 or bit 6 is set: no 6-bit condition word. Safe: nothing is decoded. -/
  | notSixBits
  /-- No row of R61 fits. R63 says this never happens; nothing falls through if it did. -/
  | noRow
  deriving DecidableEq, Repr

/-- Decodes the first byte, and gives the rest back. -/
def decodeBytes : List Byte → Except DecodeError (CodedOp × List Byte)
  | [] => .error .noByte
  | b :: rest =>
    if b &&& 0xC0#8 = 0#8 then
      match decodeWord (b.setWidth 6) with
      | some i => .ok (⟨i, b.setWidth 6 &&& ~~~ i.mask⟩, rest)
      | none => .error .noRow
    else .error .notSixBits

/-- The six-bit word of a coded operation: the row's match value with the letters filled in (R61). -/
def encodeWord (c : CodedOp) : BitVec 6 :=
  c.op.matchValue ||| c.letters

/-- The words of a coded operation, one byte (log entry 7). -/
def encode (c : CodedOp) : List Byte :=
  [(encodeWord c).setWidth 8]

/-- The operation the decoder reads from an instruction whose bits are `w`, numbered as spec/opcode_table.json numbers
them; the table's six bits stand in one byte, so `nbits` is 8 (or 6) and every bit above is 0. -/
def decodeTableWord (nbits w : Nat) : Option Instr :=
  if w < 2 ^ nbits ∧ w < 256 then
    match decodeBytes [BitVec.ofNat 8 w] with
    | .ok (c, _) => some c.op
    | .error _ => none
  else none

end Sys2Proof
end

