-- ==== Sys2Proof/Machine/State.lean ====
section
/-! DEFINITION. The state of the block (10_state.md), its reset value, and the reasons a step can stop. -/

namespace Sys2Proof.Machine

/-- The parameters the model takes as arguments (00_scope.md R7). No step writes them. Log entry 1. -/
structure Params where
  /-- PREV_INIT. -/
  prevInit : Bool
  /-- STARTUP_DELAY_CYCLES. -/
  startupDelayCycles : Nat
  deriving DecidableEq, Repr

/-- The nine decimal digits of `ctr`, `d0` the least significant (10_state.md R18). A digit is a `Fin 10`, so the
values 10..15 of a 4-bit field cannot be formed (R19, 30_encoding.md R72). -/
structure Counter where
  d0 : Fin 10
  d1 : Fin 10
  d2 : Fin 10
  d3 : Fin 10
  d4 : Fin 10
  d5 : Fin 10
  d6 : Fin 10
  d7 : Fin 10
  d8 : Fin 10
  deriving DecidableEq, Repr

/-- `"000000000"`, CTR_INIT of 00_scope.md R8. -/
def Counter.zero : Counter := ⟨0, 0, 0, 0, 0, 0, 0, 0, 0⟩

/-- The sequencing registers `phase`, `idx` and `dcnt` together (10_state.md R20 to R22). Each phase carries the one
register it uses, so the encodings that 30_encoding.md R72 puts outside the state type cannot be formed: `idx` is
0 in DELAY and POLL, at most 20 in BANNER, at most 12 in EMIT, and `dcnt` is at most STARTUP_DELAY_CYCLES (the
argument `n`) in DELAY and 0 elsewhere (10_state.md R29). Log entry 5. -/
inductive Sequencer (n : Nat)
  | delay (dcnt : Fin (n + 1))
  | banner (idx : Fin 21)
  | poll
  | emit (idx : Fin 13)
  deriving DecidableEq, Repr

/-- One input pin at one clock edge. -/
inductive Pin
  /-- The host holds this level over the edge. -/
  | level (b : Bool)
  /-- No level is known: nothing is said about the pin, or the level breaks setup or hold there (20_memory.md R38,
  R53). The sampled bit is a free value. -/
  | draw
  deriving DecidableEq, Repr

/-- The three input pins at one clock edge (20_memory.md R35): `in.rst`, `in.sync`, `in.ready` (00_scope.md R12). -/
structure EdgeInputs where
  rst : Pin
  sync : Pin
  ready : Pin
  deriving DecidableEq, Repr

/-- An edge about whose inputs nothing is said (00_scope.md R6: free inputs of each step). -/
def EdgeInputs.undriven : EdgeInputs := ⟨.draw, .draw, .draw⟩

/-- The state. `prev`, `pol`, `ctr` and `seq` are the block's registers (10_state.md R15); `params` are its parameters;
`tx` is its observation (00_scope.md R14); `pending` and `cycle` are the model's own and hold the inputs to come. -/
structure State where
  params : Params
  /-- The level of `sync_in` last recorded (R16). -/
  prev : Bool
  /-- The polarity flag, `true` for the character '1' (R17). -/
  pol : Bool
  /-- The sequence counter (R18). -/
  ctr : Counter
  /-- `phase`, `idx` and `dcnt` (R20 to R22). -/
  seq : Sequencer params.startupDelayCycles
  /-- The inputs of the coming clock edges, the next edge first; beyond the list, `EdgeInputs.undriven`. Log entry 2. -/
  pending : List EdgeInputs
  /-- The number of clock edges so far; the free values are applied to it. Log entry 2. -/
  cycle : Nat
  /-- The bytes transferred so far, oldest first (20_memory.md R41). Log entry 3. -/
  tx : List Byte
  deriving DecidableEq, Repr

/-- The register set of 10_state.md R15 as the spec writes it, one flat record; `State.regs` (Machine/Operands.lean)
reads it off a state. Statements speak of it. -/
structure Regs where
  prev : Bool
  pol : Bool
  ctr : Counter
  phase : Phase
  idx : Nat
  dcnt : Nat
  deriving DecidableEq, Repr

/-- What stops the machine with an exception: nothing. "The block raises no synchronous exception and has no cause
codes. No operation of opcode_table.json can fail" (60_exceptions.md R115). Log entry 10. -/
inductive Fault
  deriving DecidableEq, Repr

/-- Why an operation has no meaning here. -/
inductive Refusal
  /-- Raised by an arm of exec whose operation has no meaning yet. No arm is left so. Safe. -/
  | notModelled (mnemonic : String)
  /-- Raised by a meaning that is asked to run where its Condition does not hold: the condition word does not select
  the operation, and "an operation applies when (c AND mask) == match" (30_encoding.md R61). `step` never raises it.
  Safe. Log entry 6. -/
  | notSelected
  deriving DecidableEq, Repr

/-- The block right after RESET (10_state.md R31): every register at its reset value, PREV_INIT and
STARTUP_DELAY_CYCLES the constants of Config. Nothing is pending, no edge has passed, no byte is sent (log entries
1, 2 and 3). -/
def State.reset : State :=
  { params := ⟨Config.prevInit, Config.startupDelayCycles⟩
    prev := Config.prevInit
    pol := true
    ctr := Counter.zero
    seq := .delay (Fin.last Config.startupDelayCycles)
    pending := []
    cycle := 0
    tx := [] }

end Sys2Proof.Machine
end

