-- ==== Sys2Proof/Machine/Operands.lean ====
section
/-! DEFINITION. What an operation reads: the inputs of the edge, the registers, and the signals `edge` and `last` that
the condition word is made of (00_scope.md R12, 30_encoding.md R58 to R60). -/

namespace Sys2Proof.Machine

/-- The bit the block samples from a pin: its level, or the free value where there is none. -/
def Pin.sample : Pin → Bool → Bool
  | .level b, _ => b
  | .draw, free => free

/-- The pins at the coming edge. -/
def State.inputs (s : State) : EdgeInputs :=
  match s.pending with
  | e :: _ => e
  | [] => EdgeInputs.undriven

/-- `in.rst`. -/
def State.inRst (s : State) : Bool := s.inputs.rst.sample (Config.freeRst s.cycle)

/-- `in.sync`; `Sample()` of 00_scope.md R13, the level of `sync_in` at the edge (20_memory.md R37). -/
def State.inSync (s : State) : Bool := s.inputs.sync.sample (Config.freeSync s.cycle)

/-- `in.ready`. -/
def State.inReady (s : State) : Bool := s.inputs.ready.sample (Config.freeReady s.cycle)

/-- The register `phase` (10_state.md R20). -/
def Sequencer.phase {n : Nat} : Sequencer n → Phase
  | .delay _ => .delay
  | .banner _ => .banner
  | .poll => .poll
  | .emit _ => .emit

/-- The register `idx` (10_state.md R21): 0 in DELAY and POLL. -/
def Sequencer.idx {n : Nat} : Sequencer n → Nat
  | .delay _ => 0
  | .banner i => i.val
  | .poll => 0
  | .emit i => i.val

/-- The register `dcnt` (10_state.md R22): 0 in every phase other than DELAY. -/
def Sequencer.dcnt {n : Nat} : Sequencer n → Nat
  | .delay d => d.val
  | .banner _ => 0
  | .poll => 0
  | .emit _ => 0

/-- The signal `last` (30_encoding.md R58). -/
def Sequencer.last {n : Nat} : Sequencer n → Bool
  | .delay d => d.val == 0
  | .banner i => i.val == bannerLen - 1
  | .poll => false
  | .emit i => i.val == frameLen - 1

def State.phase (s : State) : Phase := s.seq.phase
def State.idx (s : State) : Nat := s.seq.idx
def State.dcnt (s : State) : Nat := s.seq.dcnt
def State.last (s : State) : Bool := s.seq.last

/-- The flat register set of 10_state.md R15. -/
def State.regs (s : State) : Regs :=
  { prev := s.prev, pol := s.pol, ctr := s.ctr, phase := s.phase, idx := s.idx, dcnt := s.dcnt }

/-- DCNT_W, the smallest width >= 1 with STARTUP_DELAY_CYCLES < 2^DCNT_W (00_scope.md R7, D27). -/
def Params.dcntWidth (p : Params) : Nat := p.startupDelayCycles.log2 + 1

/-- The signal `edge = in.sync XOR prev` (30_encoding.md R59). -/
def State.edge (s : State) : Bool := s.inSync ^^ s.prev

/-- The condition word of the coming edge (30_encoding.md R60). -/
def State.conditionWord (s : State) : CondWord :=
  { rst := s.inRst, phase := s.phase, edge := s.edge, ready := s.inReady, last := s.last }

/-- The operation the coming edge performs (30_encoding.md R57). -/
def State.selected (s : State) : Option Instr := decode s.conditionWord

/-- The pins that make the condition word's input bits, for a remembered level `prev`. -/
def edgePins (c : CondWord) (prev : Bool) : EdgeInputs :=
  { rst := .level c.rst, sync := .level (c.edge ^^ prev), ready := .level c.ready }

/-- The state with the inputs and the sequencing registers that make `c` select its operation at the coming edge.
RESET needs its pin only. DELAY_TICK needs a delay count that is not 0, so a STARTUP_DELAY_CYCLES that is not 0: the
parameter is raised by one. The POLL rows read `prev`, which is set to 0 so that the level of the pin is the edge
bit. Log entry 8. -/
def State.withCondWord (s : State) (c : CondWord) : State :=
  match c.rst, c.phase, c.last with
  | true, _, _ => { s with pending := edgePins c s.prev :: s.pending.tail }
  | false, .delay, true => { s with pending := edgePins c s.prev :: s.pending.tail, seq := .delay 0 }
  | false, .delay, false =>
    { s with
      params := { s.params with startupDelayCycles := s.params.startupDelayCycles + 1 }
      pending := edgePins c s.prev :: s.pending.tail
      seq := .delay 1 }
  | false, .banner, true => { s with pending := edgePins c s.prev :: s.pending.tail, seq := .banner 20 }
  | false, .banner, false => { s with pending := edgePins c s.prev :: s.pending.tail, seq := .banner 0 }
  | false, .poll, _ => { s with prev := false, pending := edgePins c false :: s.pending.tail, seq := .poll }
  | false, .emit, true => { s with pending := edgePins c s.prev :: s.pending.tail, seq := .emit 12 }
  | false, .emit, false => { s with pending := edgePins c s.prev :: s.pending.tail, seq := .emit 0 }

end Sys2Proof.Machine
end

