-- ==== Sys2Proof/Machine/Flags.lean ====
section
/-! DEFINITION. The block's only flag, `pol` (10_state.md R17): how it is computed and how it is sent. -/

namespace Sys2Proof.Machine

/-- TOGGLE: the polarity flip (41_sequence_counter.md R91). -/
def toggle (p : Bool) : Bool := !p

/-- The character of the polarity flag, `0x30 + pol` (30_encoding.md R66). -/
def polByte (p : Bool) : Byte := 0x30#8 + (BitVec.ofBool p).setWidth 8

end Sys2Proof.Machine
end

