-- ==== Sys2Proof/Machine/SequenceCounter.lean ====
section
/-! DEFINITION. The sequence counter (41_sequence_counter.md): its digits, its value, INCREMENT. -/

namespace Sys2Proof.Machine

/-- `ctr[i]` (00_scope.md R12): `i = 0` is the least significant digit, `i = 8` the most significant. -/
def Counter.digit (c : Counter) : Fin 9 → Fin 10
  | 0 => c.d0
  | 1 => c.d1
  | 2 => c.d2
  | 3 => c.d3
  | 4 => c.d4
  | 5 => c.d5
  | 6 => c.d6
  | 7 => c.d7
  | 8 => c.d8

/-- `val(ctr)`, the sum of `ctr[i] * 10^i` (10_state.md R19). -/
def Counter.val (c : Counter) : Nat :=
  c.d0.val + c.d1.val * 10 + c.d2.val * 100 + c.d3.val * 1000 + c.d4.val * 10000 + c.d5.val * 100000 +
    c.d6.val * 1000000 + c.d7.val * 10000000 + c.d8.val * 100000000

/-- `digits(n)`: the nine decimal digits of `n` (41_sequence_counter.md R89, R92). -/
def digits (n : Nat) : Counter :=
  ⟨Fin.ofNat 10 n, Fin.ofNat 10 (n / 10), Fin.ofNat 10 (n / 100), Fin.ofNat 10 (n / 1000), Fin.ofNat 10 (n / 10000),
    Fin.ofNat 10 (n / 100000), Fin.ofNat 10 (n / 1000000), Fin.ofNat 10 (n / 10000000), Fin.ofNat 10 (n / 100000000)⟩

/-- The 36-bit field of `ctr`: digit `i` in bits `[4i+3:4i]` (10_state.md R18). -/
def Counter.packed (c : Counter) : BitVec 36 :=
  BitVec.ofNat 36 (c.d0.val + c.d1.val * 2 ^ 4 + c.d2.val * 2 ^ 8 + c.d3.val * 2 ^ 12 + c.d4.val * 2 ^ 16 +
    c.d5.val * 2 ^ 20 + c.d6.val * 2 ^ 24 + c.d7.val * 2 ^ 28 + c.d8.val * 2 ^ 32)

/-- One turn of the loop of R87: the new digit and the carry into the next more significant one. -/
def digitStep (d : Fin 10) (carry : Bool) : Fin 10 × Bool :=
  if carry then
    if h : d.val + 1 > 9 then (0, true) else (⟨d.val + 1, by omega⟩, false)
  else (d, false)

/-- The loop of R87 over the digits, least significant first: the digits and the carry out of `r[8]`. -/
def carryLoop (c : Counter) : Counter × Bool :=
  let r0 := digitStep c.d0 true
  let r1 := digitStep c.d1 r0.2
  let r2 := digitStep c.d2 r1.2
  let r3 := digitStep c.d3 r2.2
  let r4 := digitStep c.d4 r3.2
  let r5 := digitStep c.d5 r4.2
  let r6 := digitStep c.d6 r5.2
  let r7 := digitStep c.d7 r6.2
  let r8 := digitStep c.d8 r7.2
  (⟨r0.1, r1.1, r2.1, r3.1, r4.1, r5.1, r6.1, r7.1, r8.1⟩, r8.2)

/-- INCREMENT (R87): the carry loop, and all nine digits 0 when a carry leaves the most significant digit (R88). -/
def increment (c : Counter) : Counter :=
  if (carryLoop c).2 then Counter.zero else (carryLoop c).1

end Sys2Proof.Machine
end

