-- ==== Sys2Proof/Machine/Wire.lean ====
section
/-! DEFINITION. The bytes on the wire (30_encoding.md sections 2 and 3): the banner ROM and the 13-byte record. The
codes are ASCII, which the spec takes from general knowledge (R64, 93_implementation_defined.md G1; log entry 13). -/

namespace Sys2Proof.Machine

/-- `ascii(d) = 0x30 + d` of a counter digit (30_encoding.md R65). -/
def asciiDigit (d : Fin 10) : Byte := 0x30#8 + BitVec.ofNat 8 d.val

/-- `','` (R67). -/
def comma : Byte := 0x2C#8
/-- `'\r'` (R67). -/
def cr : Byte := 0x0D#8
/-- `'\n'` (R67). -/
def lf : Byte := 0x0A#8

/-- The 21 bytes of the banner ROM, index 0 first: `"x-IMU3-SA-Sync v1.0\r\n"` (20_memory.md R44). -/
def bannerRom : List Byte :=
  [0x78#8, 0x2D#8, 0x49#8, 0x4D#8, 0x55#8, 0x33#8, 0x2D#8] ++       -- x - I M U 3 -
    [0x53#8, 0x41#8, 0x2D#8, 0x53#8, 0x79#8, 0x6E#8, 0x63#8] ++     -- S A - S y n c
    [0x20#8, 0x76#8, 0x31#8, 0x2E#8, 0x30#8, 0x0D#8, 0x0A#8]        -- space v 1 . 0 CR LF

/-- `MemRead(BANNER, i, 1)` (00_scope.md R13, 20_memory.md R44): defined at the 21 indices and at no other. -/
def memReadBanner (i : Fin 21) : Byte := bannerRom[i.val]'i.isLt

/-- The record of a polarity and a counter, its 13 bytes in order (30_encoding.md R70). -/
def record (p : Bool) (c : Counter) : List Byte :=
  [ polByte p, comma,
    asciiDigit (c.digit 8), asciiDigit (c.digit 7), asciiDigit (c.digit 6),
    asciiDigit (c.digit 5), asciiDigit (c.digit 4), asciiDigit (c.digit 3),
    asciiDigit (c.digit 2), asciiDigit (c.digit 1), asciiDigit (c.digit 0),
    cr, lf ]

/-- FRAME_BYTE(j, p, c), the record byte at index `j` (42_record_emitter.md R96, by the table of R70). -/
def frameByte (j : Fin 13) (p : Bool) (c : Counter) : Byte := (record p c)[j.val]'j.isLt

end Sys2Proof.Machine
end

