-- ==== Sys2Proof/Machine/Ops.lean ====
section
/-! DEFINITION. The named operations over the registers and the TX port that the meanings are written with, the two
outputs, the reset of all registers, and what ends an edge. -/

namespace Sys2Proof.Machine

/-- `prev <- b`. -/
def State.setPrev (s : State) (b : Bool) : State := { s with prev := b }

/-- `pol <- b`. -/
def State.setPol (s : State) (b : Bool) : State := { s with pol := b }

/-- `ctr <- c`. -/
def State.setCtr (s : State) (c : Counter) : State := { s with ctr := c }

/-- `phase`, `idx` and `dcnt` take new values together. A meaning that also writes other fields applies this one first,
so that the type of the new value speaks of the state the meaning was given. -/
def State.setSeq (s : State) (q : Sequencer s.params.startupDelayCycles) : State := { s with seq := q }

/-- `MemWrite(TX, 1, b)`: a byte transfer appends `b` to the output byte stream (20_memory.md R41). -/
def State.memWriteTx (s : State) (b : Byte) : State := { s with tx := s.tx ++ [b] }

/-- `tx_valid`: a function of the state and of `rst` only (20_memory.md R39). -/
def State.txValid (s : State) : Bool :=
  match s.phase with
  | .banner => !s.inRst
  | .emit => !s.inRst
  | .delay => false
  | .poll => false

/-- `tx_data`: a function of the state only (20_memory.md R40). In DELAY and POLL the value 0x00 is the spec's choice
and carries no byte (log entry 11). -/
def State.txData (s : State) : Byte :=
  match s.seq with
  | .banner i => memReadBanner i
  | .emit j => frameByte j s.pol s.ctr
  | .delay _ => 0x00#8
  | .poll => 0x00#8

/-- Every register to its reset value (10_state.md R31, 70_reset_and_hazards.md R129). This is the block's one forced
change of control: it has no exception entry and no return (60_exceptions.md R120, R121). The byte stream, the
parameters and the inputs to come are no registers and stay. -/
def State.resetRegs (s : State) : State :=
  { s with
    prev := s.params.prevInit
    pol := true
    ctr := Counter.zero
    seq := .delay (Fin.last s.params.startupDelayCycles) }

/-- The flat register set after RESET, for a machine with parameters `p` (10_state.md R31). -/
def Regs.atReset (p : Params) : Regs :=
  { prev := p.prevInit, pol := true, ctr := Counter.zero, phase := .delay, idx := 0, dcnt := p.startupDelayCycles }

/-- The rising edge has passed: its inputs are gone and the next edge is the coming one (00_scope.md R12). -/
def State.endEdge (s : State) : State := { s with pending := s.pending.tail, cycle := s.cycle + 1 }

end Sys2Proof.Machine
end

