-- ==== Sys2Proof/Machine/EdgeMonitor.lean ====
section
/-! DEFINITION. The edge monitor (40_edge_monitor.md): POLL_IDLE and POLL_EDGE. Neither transfers a byte. -/

namespace Sys2Proof.Machine

/-- POLL_IDLE (R83): the sample equals `prev`, and no state changes. -/
def execPollIdle (s : State) : Host.Outcome State Fault Refusal :=
  match s.seq with
  | .poll => if s.inRst = false ∧ s.inSync = s.prev then .next s else .refused .notSelected
  | .delay _ => .refused .notSelected
  | .banner _ => .refused .notSelected
  | .emit _ => .refused .notSelected

/-- POLL_EDGE (R82): the sample differs from `prev`. `prev <- in.sync; phase <- EMIT; idx <- 0`. -/
def execPollEdge (s : State) : Host.Outcome State Fault Refusal :=
  match s.seq with
  | .poll =>
    if s.inRst = false ∧ s.inSync ≠ s.prev then .next ((s.setSeq (.emit 0)).setPrev s.inSync)
    else .refused .notSelected
  | .delay _ => .refused .notSelected
  | .banner _ => .refused .notSelected
  | .emit _ => .refused .notSelected

end Sys2Proof.Machine
end

