-- ==== Sys2Proof/Machine/MainLoop.lean ====
section
/-! DEFINITION. The main loop (43_main_loop.md): DELAY_TICK, DELAY_DONE, BANNER_SEND, BANNER_LAST, and the two modes. -/

namespace Sys2Proof.Machine

/-- The two modes of R109, named as in the source. No state is kept per mode. -/
inductive Mode
  | startup
  | polling
  deriving DecidableEq, Repr

/-- Startup is DELAY and BANNER, Polling is POLL and EMIT (R109). -/
def Phase.mode : Phase → Mode
  | .delay => .startup
  | .banner => .startup
  | .poll => .polling
  | .emit => .polling

def State.mode (s : State) : Mode := Phase.mode s.phase

/-- DELAY_TICK (R105): `dcnt <- dcnt - 1`, for `dcnt != 0`. -/
def execDelayTick (s : State) : Host.Outcome State Fault Refusal :=
  match s.seq with
  | .delay d =>
    if s.inRst = false ∧ d.val ≠ 0 then
      .next (s.setSeq (.delay ⟨d.val - 1, Nat.lt_of_le_of_lt (Nat.sub_le _ _) d.isLt⟩))
    else .refused .notSelected
  | .banner _ => .refused .notSelected
  | .poll => .refused .notSelected
  | .emit _ => .refused .notSelected

/-- DELAY_DONE (R106): `phase <- BANNER; idx <- 0`, for `dcnt = 0`. -/
def execDelayDone (s : State) : Host.Outcome State Fault Refusal :=
  match s.seq with
  | .delay d => if s.inRst = false ∧ d.val = 0 then .next (s.setSeq (.banner 0)) else .refused .notSelected
  | .banner _ => .refused .notSelected
  | .poll => .refused .notSelected
  | .emit _ => .refused .notSelected

/-- BANNER_SEND (R107): `MemWrite(TX, 1, MemRead(BANNER, idx, 1)); idx <- idx + 1`, for `idx != 20`. -/
def execBannerSend (s : State) : Host.Outcome State Fault Refusal :=
  match s.seq with
  | .banner i =>
    if s.inRst = false ∧ s.inReady = true ∧ i ≠ 20 then
      .next ((s.setSeq (.banner (i + 1))).memWriteTx (memReadBanner i))
    else .refused .notSelected
  | .delay _ => .refused .notSelected
  | .poll => .refused .notSelected
  | .emit _ => .refused .notSelected

/-- BANNER_LAST (R108): `MemWrite(TX, 1, 0x0A); phase <- POLL; idx <- 0`, for `idx = 20`. -/
def execBannerLast (s : State) : Host.Outcome State Fault Refusal :=
  match s.seq with
  | .banner i =>
    if s.inRst = false ∧ s.inReady = true ∧ i = 20 then .next ((s.setSeq .poll).memWriteTx lf)
    else .refused .notSelected
  | .delay _ => .refused .notSelected
  | .poll => .refused .notSelected
  | .emit _ => .refused .notSelected

end Sys2Proof.Machine
end

