-- ==== Sys2Proof/Machine/RecordEmitter.lean ====
section
/-! DEFINITION. The record emitter (42_record_emitter.md): TX_STALL, EMIT_SEND, EMIT_LAST. -/

namespace Sys2Proof.Machine

/-- TX_STALL (R98), in BANNER and in EMIT: the sink does not take the byte on offer, and no state changes. -/
def execTxStall (s : State) : Host.Outcome State Fault Refusal :=
  match s.seq with
  | .banner _ => if s.inRst = false ∧ s.inReady = false then .next s else .refused .notSelected
  | .emit _ => if s.inRst = false ∧ s.inReady = false then .next s else .refused .notSelected
  | .delay _ => .refused .notSelected
  | .poll => .refused .notSelected

/-- EMIT_SEND (R99): `MemWrite(TX, 1, FRAME_BYTE(idx, pol, ctr)); idx <- idx + 1`, for `idx != 12`. -/
def execEmitSend (s : State) : Host.Outcome State Fault Refusal :=
  match s.seq with
  | .emit i =>
    if s.inRst = false ∧ s.inReady = true ∧ i ≠ 12 then
      .next ((s.setSeq (.emit (i + 1))).memWriteTx (frameByte i s.pol s.ctr))
    else .refused .notSelected
  | .delay _ => .refused .notSelected
  | .banner _ => .refused .notSelected
  | .poll => .refused .notSelected

/-- EMIT_LAST (R100), for `idx = 12`: `MemWrite(TX, 1, 0x0A); pol <- TOGGLE(pol); ctr <- INCREMENT(ctr);
phase <- POLL; idx <- 0`, all at one edge (20_memory.md R48). -/
def execEmitLast (s : State) : Host.Outcome State Fault Refusal :=
  match s.seq with
  | .emit i =>
    if s.inRst = false ∧ s.inReady = true ∧ i = 12 then
      .next ((((s.setSeq .poll).memWriteTx lf).setPol (toggle s.pol)).setCtr (increment s.ctr))
    else .refused .notSelected
  | .delay _ => .refused .notSelected
  | .banner _ => .refused .notSelected
  | .poll => .refused .notSelected

end Sys2Proof.Machine
end

