-- ==== Sys2Proof/Machine/Reset.lean ====
section
/-! DEFINITION. The RESET operation (70_reset_and_hazards.md). -/

namespace Sys2Proof.Machine

/-- RESET (R129): in any phase and with any other input, every register takes its reset value. No byte is
transferred. -/
def execReset (s : State) : Host.Outcome State Fault Refusal :=
  if s.inRst = true then .next s.resetRegs else .refused .notSelected

end Sys2Proof.Machine
end

