-- ==== Sys2Proof/Machine/Dispatch.lean ====
section
/-! DEFINITION. One arm per operation of spec/opcode_table.json. -/

namespace Sys2Proof.Machine

def exec (i : Instr) (s : State) : Host.Outcome State Fault Refusal :=
  match i with
  | .reset => Sys2Proof.Machine.execReset s
  | .delayTick => Sys2Proof.Machine.execDelayTick s
  | .delayDone => Sys2Proof.Machine.execDelayDone s
  | .txStall => Sys2Proof.Machine.execTxStall s
  | .bannerSend => Sys2Proof.Machine.execBannerSend s
  | .bannerLast => Sys2Proof.Machine.execBannerLast s
  | .pollIdle => Sys2Proof.Machine.execPollIdle s
  | .pollEdge => Sys2Proof.Machine.execPollEdge s
  | .emitSend => Sys2Proof.Machine.execEmitSend s
  | .emitLast => Sys2Proof.Machine.execEmitLast s

end Sys2Proof.Machine
end

