-- ==== Sys2Proof/Machine/Step.lean ====
section
/-! DEFINITION. One rising clock edge: the condition word selects an operation, the operation is performed, and the
edge's inputs are gone (00_scope.md R6, R12, R14; 30_encoding.md R57). -/

namespace Sys2Proof.Machine

/-- One edge. The block fetches no instructions (20_memory.md R54): the operation comes from the condition word. -/
def step (s : State) : Host.Outcome State Fault Refusal :=
  match s.selected with
  | some i =>
    match exec i s with
    | .next t => .next t.endEdge
    | .fault r => .fault r
    | .refused r => .refused r
  | none => .refused .notSelected

/-- The state whose next step performs the operation of the table word `w`. A word that is no condition word leaves
the state as it is. Log entry 8. -/
def State.withFetchWord (s : State) (nbits w : Nat) : State :=
  if w < 2 ^ nbits ∧ w < 64 then s.withCondWord (CondWord.ofBits (BitVec.ofNat 6 w)) else s

end Sys2Proof.Machine
end

