-- ==== Sys2Proof/Machine/ClockEdge.lean ====
section
/-! DEFINITION. The complete step function of 30_encoding.md R62 written out on the flat registers of 10_state.md R15,
branch by branch and apart from the meanings, so that the machine can be held against it. Nothing in the machine
calls it. -/

namespace Sys2Proof.Machine

/-- FRAME_BYTE(j, p, c) as the case list of 42_record_emitter.md R96 writes it; the last case is `j == 12`. -/
def frameByteByCases (j : Nat) (p : Bool) (c : Counter) : Byte :=
  if j = 0 then 0x30#8 + (if p then 1#8 else 0#8)
  else if j = 1 then 0x2C#8
  else if j ≤ 10 then 0x30#8 + BitVec.ofNat 8 (c.digit (Fin.ofNat 9 (10 - j))).val
  else if j = 11 then 0x0D#8
  else 0x0A#8

/-- `tx_data` on the flat registers (20_memory.md R40). -/
def Regs.txData (r : Regs) : Byte :=
  match r.phase with
  | .banner => bannerRom.getD r.idx 0x00#8
  | .emit => frameByteByCases r.idx r.pol r.ctr
  | .delay => 0x00#8
  | .poll => 0x00#8

/-- What one edge does: the operation that R62's comment names, the registers after it, and the byte transferred. -/
structure EdgeResult where
  op : Instr
  regs : Regs
  tx : Option Byte
  deriving DecidableEq, Repr

/-- The branch of R62 for a phase, with reset low. -/
def phaseBranch (r : Regs) (sync ready : Bool) : Instr × Regs :=
  match r.phase with
  | .delay =>
    if r.dcnt = 0 then (.delayDone, { r with phase := .banner, idx := 0 })
    else (.delayTick, { r with dcnt := r.dcnt - 1 })
  | .banner =>
    if ready = false then (.txStall, r)
    else if r.idx = 20 then (.bannerLast, { r with phase := .poll, idx := 0 })
    else (.bannerSend, { r with idx := r.idx + 1 })
  | .poll =>
    if sync ≠ r.prev then (.pollEdge, { r with prev := sync, phase := .emit, idx := 0 })
    else (.pollIdle, r)
  | .emit =>
    if ready = false then (.txStall, r)
    else if r.idx = 12 then
      (.emitLast, { r with pol := !r.pol, ctr := increment r.ctr, phase := .poll, idx := 0 })
    else (.emitSend, { r with idx := r.idx + 1 })

/-- `step(s, in)` of R62. -/
def clockEdge (p : Params) (r : Regs) (rst sync ready : Bool) : EdgeResult :=
  let valid := (r.phase == .banner || r.phase == .emit) && !rst
  let branch := if rst then (Instr.reset, Regs.atReset p) else phaseBranch r sync ready
  { op := branch.1
    regs := branch.2
    tx := if valid && ready then some r.txData else none }

end Sys2Proof.Machine
end

