-- ==== Sys2Proof/Machine/Trace.lean ====
section
/-! DEFINITION. The trace syntax of 30_encoding.md R76: one line per edge, `<cycle>: <MNEMONIC> c=<word> [tx=<hex>]`,
and the byte-string syntax of R77. -/

namespace Sys2Proof.Machine

/-- The upper-case mnemonic of R61 and spec/opcode_table.json. -/
def mnemonic : Instr → String
  | .reset => "RESET"
  | .delayTick => "DELAY_TICK"
  | .delayDone => "DELAY_DONE"
  | .txStall => "TX_STALL"
  | .bannerSend => "BANNER_SEND"
  | .bannerLast => "BANNER_LAST"
  | .pollIdle => "POLL_IDLE"
  | .pollEdge => "POLL_EDGE"
  | .emitSend => "EMIT_SEND"
  | .emitLast => "EMIT_LAST"

def bitChar (b : Bool) : Char := if b then '1' else '0'

/-- The six bits of a condition word, `c[5]` first. -/
def wordText (w : BitVec 6) : List Char :=
  [bitChar (w.getLsbD 5), bitChar (w.getLsbD 4), bitChar (w.getLsbD 3), bitChar (w.getLsbD 2),
    bitChar (w.getLsbD 1), bitChar (w.getLsbD 0)]

/-- An upper-case hexadecimal digit. -/
def hexChar (n : BitVec 4) : Char :=
  if n.toNat < 10 then Char.ofNat (48 + n.toNat) else Char.ofNat (55 + n.toNat)

/-- A byte as a pair of hexadecimal digits (R77). -/
def byteText (b : Byte) : List Char := [hexChar (b.extractLsb' 4 4), hexChar (b.extractLsb' 0 4)]

/-- The byte the coming edge transfers, if it transfers one (20_memory.md R41). -/
def State.transferred (s : State) : Option Byte :=
  if s.txValid = true ∧ s.inReady = true then some s.txData else none

/-- The trace line of the coming edge, without the `<cycle>: ` in front (R76). -/
def State.traceText (s : State) : List Char :=
  ((s.selected.map mnemonic).getD "").toList ++ " c=".toList ++ wordText s.conditionWord.toBits ++
    (match s.transferred with
    | some b => " tx=".toList ++ byteText b
    | none => [])

/-- A whole trace line: the cycle number, then the line's text. -/
def State.traceLine (s : State) (cycle : Nat) : String :=
  String.ofList ((toString cycle).toList ++ ": ".toList ++ s.traceText)

/-- A counter value as its nine digit characters, most significant first (R77). -/
def Counter.text (c : Counter) : List Char :=
  (List.finRange 9).map (fun i => Char.ofNat (48 + (c.digit i.rev).val))

end Sys2Proof.Machine
end

