-- ==== Sys2Proof/Safety.lean ====
section
/-! DEFINITION. The terms in which claims about the block are stated: runs of edges, the operations they perform, the
inputs of later edges, the invariants of 10_state.md section 7, and the byte stream a run should send. -/

namespace Sys2Proof.Machine

/-- `n` clock edges. -/
def run : Nat → State → Host.Outcome State Fault Refusal
  | 0, s => .next s
  | n + 1, s =>
    match step s with
    | .next t => run n t
    | .fault r => .fault r
    | .refused r => .refused r

/-- The operations that `n` edges perform, in order. -/
def performed : Nat → State → List Instr
  | 0, _ => []
  | n + 1, s =>
    match step s with
    | .next t => s.selected.toList ++ performed n t
    | .fault _ => []
    | .refused _ => []

/-- The state with `k` edges' inputs gone, its registers as they are: `(s.skip k).inRst` is `in.rst` at the edge that
comes `k` edges after the coming one. -/
def State.skip (s : State) (k : Nat) : State :=
  { s with pending := s.pending.drop k, cycle := s.cycle + k }

/-- `rst` is low at each of `n` edges from the coming one on. -/
def State.RstLowFor (s : State) (n : Nat) : Prop := ∀ k, k < n → (s.skip k).inRst = false

/-- The sink takes the last of `total` bytes at the last of the `n` edges that begin `start` edges from the coming one:
`tx_ready` is high at `total` of them, the last among them. Any pattern of stalls between is allowed (20_memory.md
R53: any finite number of edges). -/
def State.SinkTakes (s : State) (start n total : Nat) : Prop :=
  0 < n ∧ (List.range n).countP (fun k => (s.skip (start + k)).inReady) = total ∧
    (s.skip (start + (n - 1))).inReady = true

/-- What is no register and no byte stream is the same in both states: the parameters, and the inputs to come. -/
def SameSurroundings (s t : State) : Prop :=
  t.params = s.params ∧ t.pending = s.pending ∧ t.cycle = s.cycle

/-- The polarity invariant of 10_state.md R30: `pol = 1` exactly when `ctr[0]` is even. -/
def State.ParityInv (s : State) : Prop := s.pol = true ↔ (s.ctr.digit 0).val % 2 = 0

/-- The same state with another level driven on `sync_in` at the coming edge. -/
def State.driveSync (s : State) (b : Bool) : State :=
  { s with pending := { s.inputs with sync := .level b } :: s.pending.tail }

/-- The same state with another level driven on `tx_ready` at the coming edge. -/
def State.driveReady (s : State) (b : Bool) : State :=
  { s with pending := { s.inputs with ready := .level b } :: s.pending.tail }

/-- The same state with another level driven on `rst` at the coming edge. -/
def State.driveRst (s : State) (b : Bool) : State :=
  { s with pending := { s.inputs with rst := .level b } :: s.pending.tail }

/-- A pin at the opposite level; a draw stays a draw. -/
def Pin.invert : Pin → Pin
  | .level b => .level (!b)
  | .draw => .draw

/-- The block watching the inverted line: the remembered level, its reset value and every level to come on `sync_in`
are the opposite ones. -/
def State.invertLine (s : State) : State :=
  { s with
    params := { s.params with prevInit := !s.params.prevInit }
    prev := !s.prev
    pending := s.pending.map (fun e => { e with sync := e.sync.invert }) }

/-- The number of changes in a sequence of line levels. -/
def lineChanges : List Bool → Nat
  | a :: b :: rest => (if a = b then 0 else 1) + lineChanges (b :: rest)
  | [_] => 0
  | [] => 0

/-- The record numbered `m` since a reset, from 0 (41_sequence_counter.md R92, R93). -/
def recordNo (m : Nat) : List Byte := record (m % 2 == 0) (digits (m % ctrMod))

/-- The bytes sent since a reset when `k` records are complete and the machine stands at index `idx` of a mode
(43_main_loop.md R113). -/
def streamSinceReset (m : Mode) (k idx : Nat) : List Byte :=
  match m with
  | .startup => bannerRom.take idx
  | .polling => bannerRom ++ (List.range k).flatMap recordNo ++ (recordNo k).take idx

end Sys2Proof.Machine
end

