-- ==== Sys2Proof/Certificates/Slice0/Obligations.lean ====
section
/-! DEFINITION. The statements for the provers. Each docstring names the rule of spec/ it formalises. A rule the spec
marks [derived: ...] or takes from general knowledge is no stated rule: the statement then says so. -/

open Sys2Proof Sys2Proof.Machine

/-! ## Reset, selection and the step -/

/-- 10_state.md R31: the table of reset values, for the state the machine starts from and for the RESET operation.
PREV_INIT and STARTUP_DELAY_CYCLES are the parameters of 00_scope.md R7. -/
def Obligations.ResetSetsEveryRegister : Prop :=
  State.reset.regs =
      { prev := Config.prevInit, pol := true, ctr := ⟨0, 0, 0, 0, 0, 0, 0, 0, 0⟩, phase := .delay, idx := 0,
        dcnt := Config.startupDelayCycles } ∧
    ∀ s t : State, exec .reset s = .next t →
      t.regs =
        { prev := s.params.prevInit, pol := true, ctr := ⟨0, 0, 0, 0, 0, 0, 0, 0, 0⟩, phase := .delay, idx := 0,
          dcnt := s.params.startupDelayCycles }

/-- 30_encoding.md R57 and 00_scope.md R12: a step is `exec` of the operation that the condition word selects, and then
the edge is over: its inputs are gone, the edge number is one higher, registers, parameters and byte stream are as
exec left them. That inputs are held as `pending` and `cycle` is the model's choice (log entry 2). -/
def Obligations.StepPerformsTheSelectedOperation : Prop :=
  ∀ (s : State) (i : Instr), decode s.conditionWord = some i →
    step s =
        (match exec i s with
        | .next t => .next t.endEdge
        | .fault r => .fault r
        | .refused r => .refused r) ∧
      ∀ t : State, t.endEdge.regs = t.regs ∧ t.endEdge.tx = t.tx ∧ t.endEdge.params = t.params ∧
        t.endEdge.pending = t.pending.tail ∧ t.endEdge.cycle = t.cycle + 1

/-- 30_encoding.md R61, 95_test_vectors.md section 2.1: words written out from the table select their rows, and what is
no six-bit word is refused. -/
def Obligations.TableWordsDecodeToTheirRows : Prop :=
  decodeTableWord 8 0b100000 = some .reset ∧ decodeTableWord 8 0b111111 = some .reset ∧
  decodeTableWord 8 0b000110 = some .delayTick ∧ decodeTableWord 8 0b000001 = some .delayDone ∧
  decodeTableWord 8 0b001101 = some .txStall ∧ decodeTableWord 8 0b011000 = some .txStall ∧
  decodeTableWord 8 0b001110 = some .bannerSend ∧ decodeTableWord 8 0b001011 = some .bannerLast ∧
  decodeTableWord 8 0b010011 = some .pollIdle ∧ decodeTableWord 8 0b010110 = some .pollEdge ∧
  decodeTableWord 8 0b011010 = some .emitSend ∧ decodeTableWord 8 0b011111 = some .emitLast ∧
  decodeTableWord 8 0b1000000 = none ∧ decodeTableWord 8 0b10000000 = none

/-- 30_encoding.md R61: for every number, the decoder reads an operation exactly when the number is a six-bit word and
the operation's row matches, `(c AND mask) == match`. That the word stands in one byte is log entry 7. -/
def Obligations.DecoderReadsTheMatchingRow : Prop :=
  ∀ (w : Nat) (i : Instr),
    decodeTableWord 8 w = some i ↔ w < 64 ∧ w &&& i.mask.toNat = i.matchValue.toNat

/-- Decode and encode agree: whatever operation and letters a well-formed coded operation holds, and whatever bytes
follow, decoding its encoding gives it back with those bytes. The byte layout is log entry 7. -/
def Obligations.DecodeOfEncodeIsIdentity : Prop :=
  ∀ (c : CodedOp) (rest : List Byte), c.wellFormed = true → decodeBytes (encode c ++ rest) = .ok (c, rest)

/-- The other direction: what the decoder reads is well formed, and encoding it gives the bytes back. The byte layout is
log entry 7. -/
def Obligations.EncodeOfDecodeIsIdentity : Prop :=
  ∀ (bs rest : List Byte) (c : CodedOp), decodeBytes bs = .ok (c, rest) →
    c.wellFormed = true ∧ encode c ++ rest = bs

/-- 30_encoding.md R63, which the spec marks derived: exactly one row matches each of the 64 words, and in no state does a
POLL word with `last = 1` arise. -/
def Obligations.ExactlyOneRowMatchesEachWord : Prop :=
  (∀ w : BitVec 6, ∃ i : Instr, decodeWord w = some i ∧ w &&& i.mask = i.matchValue ∧
    ∀ j : Instr, w &&& j.mask = j.matchValue → j = i) ∧
  ∀ s : State, ¬(s.conditionWord.phase = .poll ∧ s.conditionWord.last = true)

/-- 30_encoding.md R61: an operation runs in a state exactly when its row of the table matches the state's condition
word. -/
def Obligations.OperationRunsExactlyWhenItsRowMatches : Prop :=
  ∀ (i : Instr) (s : State),
    (∃ t, exec i s = .next t) ↔
      match i with
      | .reset => s.conditionWord.toBits &&& 0x20#6 = 0x20#6
      | .delayTick => s.conditionWord.toBits &&& 0x39#6 = 0x00#6
      | .delayDone => s.conditionWord.toBits &&& 0x39#6 = 0x01#6
      | .txStall => s.conditionWord.toBits &&& 0x2A#6 = 0x08#6
      | .bannerSend => s.conditionWord.toBits &&& 0x3B#6 = 0x0A#6
      | .bannerLast => s.conditionWord.toBits &&& 0x3B#6 = 0x0B#6
      | .pollIdle => s.conditionWord.toBits &&& 0x3C#6 = 0x10#6
      | .pollEdge => s.conditionWord.toBits &&& 0x3C#6 = 0x14#6
      | .emitSend => s.conditionWord.toBits &&& 0x3B#6 = 0x1A#6
      | .emitLast => s.conditionWord.toBits &&& 0x3B#6 = 0x1B#6

/-- The model's choice of log entry 6: an operation whose row does not match is refused by name. -/
def Obligations.UnselectedOperationIsRefused : Prop :=
  ∀ (i : Instr) (s : State), s.selected ≠ some i → exec i s = .refused .notSelected

/-- 30_encoding.md R58, which the spec marks derived, and R59: the signals `last` and `edge` by their formulas. -/
def Obligations.LastAndEdgeSignals : Prop :=
  ∀ s : State,
    (s.last = true ↔
      (s.phase = .delay ∧ s.dcnt = 0) ∨ (s.phase = .banner ∧ s.idx = 20) ∨ (s.phase = .emit ∧ s.idx = 12)) ∧
    (s.edge = true ↔ s.inSync ≠ s.prev)

/-- 60_exceptions.md R119: the fixed priority of simultaneous events. -/
def Obligations.ResetThenPhaseThenStall : Prop :=
  ∀ s : State,
    (s.inRst = true → s.selected = some .reset ∧ s.txValid = false) ∧
    (s.inRst = false → s.phase = .delay → s.selected = some (if s.dcnt = 0 then .delayDone else .delayTick)) ∧
    (s.inRst = false → s.phase = .banner ∨ s.phase = .emit → s.inReady = false → s.selected = some .txStall) ∧
    (s.inRst = false → s.phase = .banner → s.inReady = true →
      s.selected = some (if s.idx = 20 then .bannerLast else .bannerSend)) ∧
    (s.inRst = false → s.phase = .emit → s.inReady = true →
      s.selected = some (if s.idx = 12 then .emitLast else .emitSend)) ∧
    (s.inRst = false → s.phase = .poll →
      s.selected = some (if s.inSync = s.prev then .pollIdle else .pollEdge))

/-- The word the host places runs next (log entry 8): after `withFetchWord` the condition word selects the operation
that the decoder reads from the table word, and the step answers a next state. -/
def Obligations.PlacedWordRunsNext : Prop :=
  ∀ (s : State) (w : Nat) (i : Instr), decodeTableWord 8 w = some i →
    (s.withFetchWord 8 w).selected = some i ∧ ∃ t, step (s.withFetchWord 8 w) = .next t

/-! ## The ten operations: what each does, where it completes, what it leaves unchanged -/

/-- 70_reset_and_hazards.md R129. -/
def Obligations.ResetOverridesEverything : Prop :=
  ∀ s : State, s.inRst = true →
    s.conditionWord.toBits &&& 0x20#6 = 0x20#6 ∧ s.txValid = false ∧
    ∃ t, exec .reset s = .next t ∧
      t.regs =
        { prev := s.params.prevInit, pol := true, ctr := Counter.zero, phase := .delay, idx := 0,
          dcnt := s.params.startupDelayCycles } ∧
      t.tx = s.tx ∧ SameSurroundings s t

/-- 43_main_loop.md R105, its corner case STARTUP_DELAY_CYCLES = 0 included. -/
def Obligations.DelayTickCountsDown : Prop :=
  (∀ s : State, s.inRst = false → s.phase = .delay → s.dcnt ≠ 0 →
    s.conditionWord.toBits &&& 0x39#6 = 0x00#6 ∧ s.txValid = false ∧
    ∃ t, exec .delayTick s = .next t ∧ t.regs = { s.regs with dcnt := s.dcnt - 1 } ∧
      t.tx = s.tx ∧ SameSurroundings s t) ∧
  ∀ s : State, s.params.startupDelayCycles = 0 → s.selected ≠ some .delayTick

/-- 43_main_loop.md R106, one edge of it; its count of edges is `DelayLastsItsCountPlusOne`. -/
def Obligations.DelayDoneEntersBanner : Prop :=
  ∀ s : State, s.inRst = false → s.phase = .delay → s.dcnt = 0 →
    s.conditionWord.toBits &&& 0x39#6 = 0x01#6 ∧ s.txValid = false ∧
    ∃ t, exec .delayDone s = .next t ∧ t.regs = { s.regs with phase := .banner, idx := 0 } ∧
      t.tx = s.tx ∧ SameSurroundings s t

/-- 42_record_emitter.md R98. -/
def Obligations.TxStallChangesNothing : Prop :=
  ∀ s : State, s.inRst = false → s.phase = .banner ∨ s.phase = .emit → s.inReady = false →
    s.conditionWord.toBits &&& 0x2A#6 = 0x08#6 ∧ s.txValid = true ∧
    ∃ t, exec .txStall s = .next t ∧ t.regs = s.regs ∧ t.txData = s.txData ∧ t.tx = s.tx ∧ SameSurroundings s t

/-- 43_main_loop.md R107: the byte sent is the banner ROM's byte at `idx` (20_memory.md R44). -/
def Obligations.BannerSendTransfersOneByte : Prop :=
  ∀ s : State, s.inRst = false → s.phase = .banner → s.inReady = true → s.idx ≠ 20 →
    s.conditionWord.toBits &&& 0x3B#6 = 0x0A#6 ∧ s.txValid = true ∧
    ∃ t, exec .bannerSend s = .next t ∧ t.regs = { s.regs with idx := s.idx + 1 } ∧
      (∃ i : Fin 21, i.val = s.idx ∧ t.tx = s.tx ++ [memReadBanner i]) ∧ SameSurroundings s t

/-- 43_main_loop.md R108. -/
def Obligations.BannerLastEntersPolling : Prop :=
  ∀ s : State, s.inRst = false → s.phase = .banner → s.inReady = true → s.idx = 20 →
    s.conditionWord.toBits &&& 0x3B#6 = 0x0B#6 ∧ s.txValid = true ∧
    ∃ t, exec .bannerLast s = .next t ∧ t.regs = { s.regs with phase := .poll, idx := 0 } ∧
      t.tx = s.tx ++ [0x0A#8] ∧ SameSurroundings s t

/-- 40_edge_monitor.md R83. -/
def Obligations.PollIdleChangesNothing : Prop :=
  ∀ s : State, s.inRst = false → s.phase = .poll → s.inSync = s.prev →
    s.conditionWord.toBits &&& 0x3C#6 = 0x10#6 ∧ s.txValid = false ∧
    ∃ t, exec .pollIdle s = .next t ∧ t.regs = s.regs ∧ t.tx = s.tx ∧ SameSurroundings s t

/-- 40_edge_monitor.md R82: rising and falling edges alike; `pol` and `ctr` are unchanged and the first record byte is
on offer from the next edge on. -/
def Obligations.PollEdgeRecordsTheLevel : Prop :=
  ∀ s : State, s.inRst = false → s.phase = .poll → s.inSync ≠ s.prev →
    s.conditionWord.toBits &&& 0x3C#6 = 0x14#6 ∧ s.txValid = false ∧
    ∃ t, exec .pollEdge s = .next t ∧
      t.regs = { s.regs with prev := s.inSync, phase := .emit, idx := 0 } ∧
      t.tx = s.tx ∧ SameSurroundings s t ∧ t.txData = frameByte 0 s.pol s.ctr ∧
      (t.endEdge.inRst = false → t.endEdge.txValid = true)

/-- 42_record_emitter.md R99: the byte sent is FRAME_BYTE(idx, pol, ctr). -/
def Obligations.EmitSendTransfersOneByte : Prop :=
  ∀ s : State, s.inRst = false → s.phase = .emit → s.inReady = true → s.idx ≠ 12 →
    s.conditionWord.toBits &&& 0x3B#6 = 0x1A#6 ∧ s.txValid = true ∧
    ∃ t, exec .emitSend s = .next t ∧ t.regs = { s.regs with idx := s.idx + 1 } ∧
      (∃ i : Fin 13, i.val = s.idx ∧ t.tx = s.tx ++ [frameByte i s.pol s.ctr]) ∧ SameSurroundings s t

/-- 42_record_emitter.md R100, with TOGGLE (R91) and INCREMENT (R87, `increment`). The next edge is a POLL step. -/
def Obligations.EmitLastTogglesAndIncrements : Prop :=
  ∀ s : State, s.inRst = false → s.phase = .emit → s.inReady = true → s.idx = 12 →
    s.conditionWord.toBits &&& 0x3B#6 = 0x1B#6 ∧ s.txValid = true ∧
    ∃ t, exec .emitLast s = .next t ∧
      t.regs = { s.regs with pol := !s.pol, ctr := increment s.ctr, phase := .poll, idx := 0 } ∧
      t.tx = s.tx ++ [0x0A#8] ∧ SameSurroundings s t

/-! ## The machine as a whole -/

/-- 30_encoding.md R62: every edge does what the complete step function does, written out on the flat registers: the
operation of the branch taken, the registers after it, the byte transferred; the parameters stay. That the edge's inputs
are then gone (`pending`) and the edge number is one higher (`cycle`) is the model's choice of how inputs are held (log
entry 2), no part of R62. -/
def Obligations.StepIsTheCompleteStepFunction : Prop :=
  ∀ s : State, ∃ t, step s = .next t ∧
    s.selected = some (clockEdge s.params s.regs s.inRst s.inSync s.inReady).op ∧
    t.regs = (clockEdge s.params s.regs s.inRst s.inSync s.inReady).regs ∧
    t.tx = s.tx ++ (clockEdge s.params s.regs s.inRst s.inSync s.inReady).tx.toList ∧
    t.params = s.params ∧ t.pending = s.pending.tail ∧ t.cycle = s.cycle + 1

/-- 60_exceptions.md R115: no operation can fail. Every run of any number of edges from any state goes on, and performs
one operation an edge. -/
def Obligations.EveryRunGoesOn : Prop :=
  ∀ (n : Nat) (s : State), ∃ t, run n s = .next t ∧ (performed n s).length = n

/-- 10_state.md R24, which the spec marks derived: which operations write which field. Nothing writes the parameters. -/
def Obligations.OnlyTheWritersWrite : Prop :=
  ∀ (i : Instr) (s t : State), exec i s = .next t →
    (t.prev ≠ s.prev → i = .pollEdge ∨ i = .reset) ∧
    (t.pol ≠ s.pol → i = .emitLast ∨ i = .reset) ∧
    (t.ctr ≠ s.ctr → i = .emitLast ∨ i = .reset) ∧
    (t.phase ≠ s.phase → i = .delayDone ∨ i = .bannerLast ∨ i = .pollEdge ∨ i = .emitLast ∨ i = .reset) ∧
    (t.idx ≠ s.idx →
      i = .bannerSend ∨ i = .bannerLast ∨ i = .pollEdge ∨ i = .emitSend ∨ i = .emitLast ∨ i = .reset) ∧
    (t.dcnt ≠ s.dcnt → i = .delayTick ∨ i = .reset) ∧
    (t.tx ≠ s.tx → i = .bannerSend ∨ i = .bannerLast ∨ i = .emitSend ∨ i = .emitLast) ∧
    SameSurroundings s t

/-- 10_state.md R23, which the spec marks derived: the phase and the index after each operation. -/
def Obligations.PhaseAndIndexAfterEachOperation : Prop :=
  ∀ (i : Instr) (s t : State), exec i s = .next t →
    (t.phase, t.idx) =
      match i with
      | .reset => (.delay, 0)
      | .delayTick => (.delay, 0)
      | .delayDone => (.banner, 0)
      | .txStall => (s.phase, s.idx)
      | .bannerSend => (.banner, s.idx + 1)
      | .bannerLast => (.poll, 0)
      | .pollIdle => (.poll, 0)
      | .pollEdge => (.emit, 0)
      | .emitSend => (.emit, s.idx + 1)
      | .emitLast => (.poll, 0)

/-- 10_state.md R29, which the spec marks derived: the bounds of the reachable states. The state type admits no other
state (log entry 5), so they hold of every state. -/
def Obligations.RegistersStayInTheirBounds : Prop :=
  ∀ s : State,
    (s.phase = .banner → s.idx ≤ 20) ∧ (s.phase = .emit → s.idx ≤ 12) ∧
    (s.phase = .delay ∨ s.phase = .poll → s.idx = 0) ∧ (s.phase ≠ .delay → s.dcnt = 0) ∧
    s.dcnt ≤ s.params.startupDelayCycles ∧ ∀ i : Fin 9, (s.ctr.digit i).val ≤ 9

/-- 10_state.md R30, which the spec marks derived: the polarity invariant holds at reset. -/
def Obligations.ParityHoldsAtReset : Prop := State.reset.ParityInv

/-- 10_state.md R30, which the spec marks derived: every step keeps the invariant that `pol = 1` exactly when `ctr[0]` is
even. -/
def Obligations.EveryStepKeepsParity : Prop :=
  ∀ s t : State, s.ParityInv → step s = .next t → t.ParityInv

/-- 41_sequence_counter.md R92 and R93, which the spec marks derived: over any run without RESET from any state, the
counter goes up by the number of EMIT_LAST steps modulo 10^9 and the polarity flips that many times; from the reset
registers, `val(ctr) = k mod 10^9` and `pol = 1` exactly when `k` is even. -/
def Obligations.CounterCountsCompletedRecords : Prop :=
  ∀ (n : Nat) (s t : State), run n s = .next t → Instr.reset ∉ performed n s →
    t.ctr.val = (s.ctr.val + (performed n s).count .emitLast) % 1000000000 ∧
    (t.pol = s.pol ↔ (performed n s).count .emitLast % 2 = 0) ∧
    (s.regs = Regs.atReset s.params →
      t.ctr.val = (performed n s).count .emitLast % 1000000000 ∧
      (t.pol = true ↔ (performed n s).count .emitLast % 2 = 0))

/-- 20_memory.md R48: the toggle and the increment are one atomic update. -/
def Obligations.ToggleAndIncrementAreAtomic : Prop :=
  ∀ s t : State, step s = .next t → s.inRst = false →
    ((t.pol ≠ s.pol ↔ s.selected = some .emitLast) ∧ (t.ctr ≠ s.ctr ↔ s.selected = some .emitLast))

/-- 43_main_loop.md R109, which the spec marks derived, and R111: how the two modes are entered and left, and what
Startup may not do. -/
def Obligations.ModesAreEnteredAndLeftAsStated : Prop :=
  ∀ s t : State, step s = .next t →
    (s.mode = .startup → (t.mode = .polling ↔ s.selected = some .bannerLast)) ∧
    (s.mode = .polling → (t.mode = .startup ↔ s.selected = some .reset)) ∧
    (s.mode = .startup → s.inRst = false → t.pol = s.pol ∧ t.ctr = s.ctr ∧ t.prev = s.prev)

/-- 43_main_loop.md R111. -/
def Obligations.PollingNeverExitsOnItsOwn : Prop :=
  ∀ s t : State, step s = .next t → s.inRst = false →
    (s.phase = .poll →
      (t.phase = .poll ∧ s.selected = some .pollIdle) ∨ (t.phase = .emit ∧ s.selected = some .pollEdge)) ∧
    (s.phase = .emit →
      (t.phase = .emit ∧ (s.selected = some .txStall ∨ s.selected = some .emitSend)) ∨
      (t.phase = .poll ∧ s.selected = some .emitLast))

/-! ## The ports -/

/-- 20_memory.md R39. -/
def Obligations.TxValidByStateAndReset : Prop :=
  ∀ s : State,
    (s.txValid = true ↔ (s.phase = .banner ∨ s.phase = .emit) ∧ s.inRst = false) ∧
    ∀ b, (s.driveReady b).txValid = s.txValid ∧ (s.driveReady b).txData = s.txData

/-- 20_memory.md R40. The bytes in BANNER and EMIT are the rule's; the value 0x00 in DELAY and POLL is what R40 calls
"this spec's choice", followed by the model (log entry 11): no sink may read it (R43), and hardware may show another. -/
def Obligations.TxDataByState : Prop :=
  ∀ s : State,
    (∀ i : Fin 21, s.phase = .banner → s.idx = i.val → s.txData = memReadBanner i) ∧
    (∀ j : Fin 13, s.phase = .emit → s.idx = j.val → s.txData = frameByte j s.pol s.ctr) ∧
    (s.phase = .delay ∨ s.phase = .poll → s.txData = 0x00#8)

/-- 20_memory.md R41: the output stream grows by `tx_data` exactly at the edges with `tx_valid = 1` and
`tx_ready = 1`. -/
def Obligations.BytesAreTransferredByTheHandshake : Prop :=
  ∀ s t : State, step s = .next t →
    t.tx = s.tx ++ (if s.txValid = true ∧ s.inReady = true then [s.txData] else [])

/-- 20_memory.md R42, which the spec marks derived: a byte on offer is held until it is taken, over any number of edges
without reset at which the sink is not ready; then the step is TX_STALL each time. -/
def Obligations.OfferIsHeldUntilTaken : Prop :=
  ∀ (n : Nat) (s : State), s.phase = .banner ∨ s.phase = .emit → s.RstLowFor n →
    (∀ k, k < n → (s.skip k).inReady = false) →
    ∃ t, run n s = .next t ∧ performed n s = List.replicate n .txStall ∧ t.regs = s.regs ∧ t.tx = s.tx ∧
      t.txData = s.txData ∧ (t.inRst = false → t.txValid = true)

/-- 20_memory.md R43: with `tx_valid = 0`, `tx_ready` is a don't-care input and no byte is transferred. -/
def Obligations.ReadyIsIgnoredWithoutAnOffer : Prop :=
  ∀ s : State, s.txValid = false →
    (∃ t, step s = .next t ∧ t.tx = s.tx) ∧ ∀ b, step (s.driveReady b) = step s

/-- 20_memory.md R37: every POLL step without reset samples `sync_in`, after which `prev` is the sample; in DELAY, BANNER
and EMIT `sync_in` is not sampled. -/
def Obligations.SyncIsSampledInPollOnly : Prop :=
  (∀ s t : State, s.phase = .poll → s.inRst = false → step s = .next t → t.prev = s.inSync) ∧
  ∀ (s : State) (b : Bool), s.phase ≠ .poll → step (s.driveSync b) = step s

/-- 20_memory.md R38 and R53: a pin that holds a level is sampled at that level. A pin at which no level is known, or whose
level breaks setup or hold, is a draw: the edge is the one at which the free value `Config.freeSync` (for `rst`,
`Config.freeRst`) of the edge number is driven. The constants are opaque, so both levels are admitted; that the draw is
a function of the edge number is the model's form of it (log entry 2). What the draw decides: in POLL without reset, the
level recorded and whether there is an edge (R82, R83); on `rst`, RESET or the operation the other inputs select. -/
def Obligations.ViolatedSampleIsOneOfTheTwoLevels : Prop :=
  ∀ s : State,
    (s.inputs.sync = .draw →
      step s = step (s.driveSync (Config.freeSync s.cycle)) ∧
      (s.phase = .poll → s.inRst = false →
        s.selected = some (if Config.freeSync s.cycle = s.prev then .pollIdle else .pollEdge) ∧
        ∃ t, step s = .next t ∧ t.prev = Config.freeSync s.cycle)) ∧
    (∀ b, s.inputs.sync = .level b → step s = step (s.driveSync b)) ∧
    (s.inputs.rst = .draw →
      step s = step (s.driveRst (Config.freeRst s.cycle)) ∧
      s.selected = if Config.freeRst s.cycle then some .reset else (s.driveRst false).selected) ∧
    (∀ b, s.inputs.rst = .level b → step s = step (s.driveRst b)) ∧
    ∀ b, (s.driveSync b).inSync = b ∧ (s.driveRst b).inRst = b

/-- 40_edge_monitor.md R86: the direction of an edge has no effect. The block on the inverted line sends the same bytes
and goes through the same registers, but for the remembered level. -/
def Obligations.DirectionOfTheEdgeHasNoEffect : Prop :=
  ∀ s : State, (∃ e rest b, s.pending = e :: rest ∧ e.sync = .level b) →
    ∃ t, step s = .next t ∧ step s.invertLine = .next t.invertLine ∧ t.invertLine.tx = t.tx ∧
      t.invertLine.regs = { t.regs with prev := !t.prev }

/-- 40_edge_monitor.md R84, which the spec marks derived: of the levels of the line since the sample that set `prev`, up
to this POLL sample, an odd number of changes gives one record and an even number gives none. -/
def Obligations.ChangesCoalesceByParity : Prop :=
  ∀ (s t : State) (levels : List Bool), s.phase = .poll → s.inRst = false →
    levels.head? = some s.prev → levels.getLast? = some s.inSync → step s = .next t →
    (lineChanges levels % 2 = 1 → s.selected = some .pollEdge ∧ t.phase = .emit ∧ t.prev = s.inSync) ∧
    (lineChanges levels % 2 = 0 → s.selected = some .pollIdle ∧ t.regs = s.regs)

/-! ## The counter and the bytes -/

/-- 41_sequence_counter.md R89, which the spec marks derived: the arithmetic law of INCREMENT, and the other definition
it allows. -/
def Obligations.IncrementIsSuccessorModuloTenToTheNine : Prop :=
  ∀ c : Counter,
    (increment c).val = (c.val + 1) % 1000000000 ∧ increment c = digits ((c.val + 1) % 1000000000)

/-- 41_sequence_counter.md R88: `"999999999"` goes to `"000000000"`, and it is the only value whose carry leaves the most
significant digit. -/
def Obligations.OnlyAllNinesWraps : Prop :=
  increment ⟨9, 9, 9, 9, 9, 9, 9, 9, 9⟩ = ⟨0, 0, 0, 0, 0, 0, 0, 0, 0⟩ ∧
    ∀ c : Counter, (carryLoop c).2 = true ↔ c = ⟨9, 9, 9, 9, 9, 9, 9, 9, 9⟩

/-- 10_state.md R19: the value of the counter is the sum of its digits by weight, at most 999 999 999, and `digits`
writes it back. -/
def Obligations.CounterValueAndDigits : Prop :=
  (∀ c : Counter, c.val = ∑ i : Fin 9, (c.digit i).val * 10 ^ i.val) ∧
  (∀ c : Counter, c.val ≤ 999999999 ∧ digits c.val = c) ∧
  ∀ n, n < 1000000000 → (digits n).val = n

/-- 10_state.md R18: digit `i` of the counter stands in bits `[4i+3:4i]` of the 36-bit field. -/
def Obligations.DigitsStandInTheirFourBits : Prop :=
  ∀ (c : Counter) (i : Fin 9), (c.packed.extractLsb' (4 * i.val) 4).toNat = (c.digit i).val

/-- 42_record_emitter.md R96 and 30_encoding.md R70, R71; the character codes are the spec's from general knowledge
(log entry 13). -/
def Obligations.FrameBytesAreTheRecord : Prop :=
  (∀ (j : Fin 13) (p : Bool) (c : Counter),
    (j.val = 0 → frameByte j p c = if p then 0x31#8 else 0x30#8) ∧
    (j.val = 1 → frameByte j p c = 0x2C#8) ∧
    (∀ i : Fin 9, j.val + i.val = 10 → frameByte j p c = 0x30#8 + BitVec.ofNat 8 (c.digit i).val) ∧
    (j.val = 11 → frameByte j p c = 0x0D#8) ∧
    (j.val = 12 → frameByte j p c = 0x0A#8)) ∧
  record true ⟨2, 4, 0, 0, 0, 0, 0, 0, 0⟩ =
    [0x31#8, 0x2C#8, 0x30#8, 0x30#8, 0x30#8, 0x30#8, 0x30#8, 0x30#8, 0x30#8, 0x34#8, 0x32#8, 0x0D#8, 0x0A#8]

/-- 20_memory.md R44: the banner ROM, index by index; the codes are the spec's from general knowledge (log entry 13). -/
def Obligations.BannerRomHoldsTheStartupLine : Prop :=
  (List.finRange 21).map memReadBanner =
    [0x78#8, 0x2D#8, 0x49#8, 0x4D#8, 0x55#8, 0x33#8, 0x2D#8, 0x53#8, 0x41#8, 0x2D#8, 0x53#8] ++
    [0x79#8, 0x6E#8, 0x63#8, 0x20#8, 0x76#8, 0x31#8, 0x2E#8, 0x30#8, 0x0D#8, 0x0A#8]

/-- 30_encoding.md R73, which the spec marks derived: every byte a step appends is a character of R64: no NUL byte, no
byte above 0x7F. -/
def Obligations.OnlyListedCharactersAreSent : Prop :=
  ∀ (s t : State) (bs : List Byte), step s = .next t → t.tx = s.tx ++ bs →
    bs.length ≤ 1 ∧ ∀ b ∈ bs, b ≠ 0x00#8 ∧ b.toNat ≤ 0x7F ∧
      (b ∈ bannerRom ∨ b = 0x2C#8 ∨ (0x30 ≤ b.toNat ∧ b.toNat ≤ 0x39))

/-- 00_scope.md R7, 92_eei_decisions.md D27: DCNT_W is at least 1, holds STARTUP_DELAY_CYCLES and the delay counter of
every state, and is the smallest such width. -/
def Obligations.DelayCounterWidthIsSmallest : Prop :=
  (∀ p : Params, 1 ≤ p.dcntWidth ∧ p.startupDelayCycles < 2 ^ p.dcntWidth ∧
    ∀ w, 1 ≤ w → p.startupDelayCycles < 2 ^ w → p.dcntWidth ≤ w) ∧
  ∀ s : State, s.dcnt < 2 ^ s.params.dcntWidth

/-! ## Runs -/

/-- 70_reset_and_hazards.md R132, which the spec marks derived: while reset is held, for any number of edges, the state is
at the reset values and no byte is transferred. -/
def Obligations.HeldResetIsOneReset : Prop :=
  ∀ (n : Nat) (s : State), (∀ k, k < n + 1 → (s.skip k).inRst = true) →
    ∃ t, run (n + 1) s = .next t ∧ t.regs = Regs.atReset s.params ∧ t.tx = s.tx

/-- 30_encoding.md R80: `sendByte(b)` is one byte transfer together with the TX_STALL steps before it. The byte taken is the
byte that was on offer when the stalls began. -/
def Obligations.SendByteIsStallsThenOneTransfer : Prop :=
  ∀ (n : Nat) (s : State), s.phase = .banner ∨ s.phase = .emit → s.RstLowFor (n + 1) →
    (∀ k, k < n → (s.skip k).inReady = false) → (s.skip n).inReady = true →
    ∃ (i : Instr) (t : State), run (n + 1) s = .next t ∧ performed (n + 1) s = List.replicate n .txStall ++ [i] ∧
      i ∈ [Instr.bannerSend, Instr.bannerLast, Instr.emitSend, Instr.emitLast] ∧ t.tx = s.tx ++ [s.txData]

/-- 43_main_loop.md R106, 30_encoding.md R80: from a delay count, that many DELAY_TICK steps and one DELAY_DONE; then the
banner is on offer and no byte has been sent. -/
def Obligations.DelayLastsItsCountPlusOne : Prop :=
  ∀ s : State, s.phase = .delay → s.RstLowFor (s.dcnt + 1) →
    ∃ t, run (s.dcnt + 1) s = .next t ∧
      performed (s.dcnt + 1) s = List.replicate s.dcnt .delayTick ++ [.delayDone] ∧
      t.regs = { s.regs with phase := .banner, idx := 0, dcnt := 0 } ∧ t.tx = s.tx

/-- 43_main_loop.md R110 and R108, 70_reset_and_hazards.md R145: from the reset registers, STARTUP_DELAY_CYCLES + 1 edges
of waiting and then any edges at which the sink takes 21 bytes, under any pattern of stalls, send exactly the banner
and reach POLL with `pol`, `ctr` and `prev` at their reset values. -/
def Obligations.StartupSendsTheBanner : Prop :=
  ∀ (s : State) (n : Nat), s.regs = Regs.atReset s.params →
    s.RstLowFor (s.params.startupDelayCycles + 1 + n) → s.SinkTakes (s.params.startupDelayCycles + 1) n 21 →
    ∃ t, run (s.params.startupDelayCycles + 1 + n) s = .next t ∧ t.tx = s.tx ++ bannerRom ∧
      t.regs =
        { prev := s.params.prevInit, pol := true, ctr := Counter.zero, phase := .poll, idx := 0, dcnt := 0 }

/-- 42_record_emitter.md R101, which the spec marks derived, and 30_encoding.md R79: a POLL_EDGE followed, without reset,
by any edges at which the sink takes 13 bytes, under any pattern of stalls, sends exactly one complete record of the
`pol` and `ctr` it began with (R97), makes one toggle and one increment, and is back in POLL. -/
def Obligations.DetectedEdgeSendsOneRecord : Prop :=
  ∀ (s : State) (n : Nat), s.phase = .poll → s.inSync ≠ s.prev → s.RstLowFor (n + 1) → s.SinkTakes 1 n 13 →
    ∃ t, run (n + 1) s = .next t ∧ t.tx = s.tx ++ record s.pol s.ctr ∧
      t.regs = { s.regs with prev := s.inSync, pol := !s.pol, ctr := increment s.ctr }

/-- 43_main_loop.md R113, which the spec marks derived (with 41_sequence_counter.md R92, R93): after a reset, whatever the
inputs and for any number of edges without another reset, the bytes sent are a prefix of the banner; once in Polling
they are the banner, the complete records number 0, 1, 2, ... in order, and the first `idx` bytes of the record in
progress. -/
def Obligations.StreamIsBannerThenNumberedRecords : Prop :=
  ∀ (n : Nat) (s t : State), s.regs = Regs.atReset s.params → run n s = .next t →
    Instr.reset ∉ performed n s →
    t.tx = s.tx ++ streamSinceReset t.mode ((performed n s).count .emitLast) t.idx

/-- 70_reset_and_hazards.md R138, which the spec marks derived: two detected transitions are at least 14 edges apart, and
one more for each stall between them. -/
def Obligations.DetectedEdgesAreFourteenApart : Prop :=
  ∀ (n : Nat) (s t : State), 0 < n → s.selected = some .pollEdge → run n s = .next t →
    Instr.reset ∉ performed n s → t.selected = some .pollEdge →
    14 + (performed n s).count .txStall ≤ n

/-- 70_reset_and_hazards.md R142, which the spec marks derived: as long as nothing has been detected since reset, a POLL
step compares the line with PREV_INIT, and an edge there begins record number 0, `"1,000000000\r\n"`. -/
def Obligations.FirstPollComparesWithPrevInit : Prop :=
  ∀ (n : Nat) (s t : State), s.regs = Regs.atReset s.params → run n s = .next t →
    Instr.reset ∉ performed n s → Instr.pollEdge ∉ performed n s → t.phase = .poll → t.inRst = false →
    (t.selected = some .pollEdge ↔ t.inSync ≠ s.params.prevInit) ∧ t.pol = true ∧ t.ctr = Counter.zero

/-- 40_edge_monitor.md R83: any number of POLL_IDLE steps, with the line at the remembered level, leaves every register
as it is and sends nothing. -/
def Obligations.SteadyLineSendsNothing : Prop :=
  ∀ (n : Nat) (s : State), s.phase = .poll → s.RstLowFor n → (∀ k, k < n → (s.skip k).inSync = s.prev) →
    ∃ t, run n s = .next t ∧ performed n s = List.replicate n .pollIdle ∧ t.regs = s.regs ∧ t.tx = s.tx
end

