-- ==== Sys2Proof/Laws/Counter.lean ====
section
/-! SUPPORT. What one turn of the carry loop does, and the digits by number. -/

namespace Sys2Proof.Machine

/-- A turn of the loop keeps the sum: the digit and the carry in make ten carries out and the new digit. -/
theorem digitStep_sum (d : Fin 10) (carry : Bool) :
    (digitStep d carry).1.val + 10 * (digitStep d carry).2.toNat = d.val + carry.toNat := by
  revert d carry
  decide

/-- A carry leaves a digit only where one came in and the digit was 9, and then the digit becomes 0. -/
theorem digitStep_carry (d : Fin 10) (carry : Bool) (h : (digitStep d carry).2 = true) :
    carry = true ∧ d = 9 ∧ (digitStep d carry).1 = 0 := by
  revert d carry
  decide

/-- A counter is its nine digits. -/
theorem Counter.ext_digit {c c' : Counter} (h : ∀ i, c.digit i = c'.digit i) : c = c' := by
  obtain ⟨⟩ := c
  obtain ⟨⟩ := c'
  simp only [Counter.mk.injEq]
  exact ⟨h 0, h 1, h 2, h 3, h 4, h 5, h 6, h 7, h 8⟩

/-- A record has FRAME_LEN bytes (00_scope.md R9). -/
@[simp] theorem record_length (p : Bool) (c : Counter) : (record p c).length = frameLen := rfl

/-- The banner has BANNER_LEN bytes (00_scope.md R9). -/
@[simp] theorem bannerRom_length : bannerRom.length = bannerLen := rfl

end Sys2Proof.Machine
end

