-- ==== Sys2Proof/Laws/Decode.lean ====
section
/-! SUPPORT. What the selection table decides, field by field. Later proofs cite these and never unfold the table. -/

namespace Sys2Proof

section rowwise
variable (p : Phase) (e t l : Bool)

@[simp] theorem decode_reset : decode ⟨true, p, e, t, l⟩ = some .reset := rfl
@[simp] theorem decode_delayTick : decode ⟨false, .delay, e, t, false⟩ = some .delayTick := rfl
@[simp] theorem decode_delayDone : decode ⟨false, .delay, e, t, true⟩ = some .delayDone := rfl
@[simp] theorem decode_stall_banner : decode ⟨false, .banner, e, false, l⟩ = some .txStall := rfl
@[simp] theorem decode_stall_emit : decode ⟨false, .emit, e, false, l⟩ = some .txStall := rfl
@[simp] theorem decode_bannerSend : decode ⟨false, .banner, e, true, false⟩ = some .bannerSend := rfl
@[simp] theorem decode_bannerLast : decode ⟨false, .banner, e, true, true⟩ = some .bannerLast := rfl
@[simp] theorem decode_pollIdle : decode ⟨false, .poll, false, t, l⟩ = some .pollIdle := rfl
@[simp] theorem decode_pollEdge : decode ⟨false, .poll, true, t, l⟩ = some .pollEdge := rfl
@[simp] theorem decode_emitSend : decode ⟨false, .emit, e, true, false⟩ = some .emitSend := rfl
@[simp] theorem decode_emitLast : decode ⟨false, .emit, e, true, true⟩ = some .emitLast := rfl

end rowwise

/-- Some row fits every condition word. -/
theorem decode_isSome (c : CondWord) : ∃ i, decode c = some i := by
  obtain ⟨r, p, e, t, l⟩ := c
  cases r <;> cases p <;> cases e <;> cases t <;> cases l <;> exact ⟨_, rfl⟩

/-- The fields of a condition word are its bits. -/
@[simp] theorem CondWord.ofBits_toBits (c : CondWord) : CondWord.ofBits c.toBits = c := by
  obtain ⟨r, p, e, t, l⟩ := c
  cases r <;> cases p <;> cases e <;> cases t <;> cases l <;> rfl

/-- The mask of a row covers the bits that hold no letter. -/
theorem Instr.mask_eq_not_letterBits (i : Instr) : i.mask = ~~~ i.letterBits := by
  cases i <;> rfl

end Sys2Proof
end

