-- ==== Sys2Proof/Laws/State.lean ====
section
/-! SUPPORT. What each named update of a state does to each field, to each register and to the inputs of the edge: true
by definition, so that no later proof unfolds a record update. -/

namespace Sys2Proof.Machine


section setPrev
variable (s : State) (b : Bool)

@[simp] theorem State.setPrev_params : (s.setPrev b).params = s.params := rfl
@[simp] theorem State.setPrev_prev : (s.setPrev b).prev = b := rfl
@[simp] theorem State.setPrev_pol : (s.setPrev b).pol = s.pol := rfl
@[simp] theorem State.setPrev_ctr : (s.setPrev b).ctr = s.ctr := rfl
@[simp] theorem State.setPrev_phase : (s.setPrev b).phase = s.phase := rfl
@[simp] theorem State.setPrev_idx : (s.setPrev b).idx = s.idx := rfl
@[simp] theorem State.setPrev_dcnt : (s.setPrev b).dcnt = s.dcnt := rfl
@[simp] theorem State.setPrev_pending : (s.setPrev b).pending = s.pending := rfl
@[simp] theorem State.setPrev_cycle : (s.setPrev b).cycle = s.cycle := rfl
@[simp] theorem State.setPrev_tx : (s.setPrev b).tx = s.tx := rfl
@[simp] theorem State.setPrev_inRst : (s.setPrev b).inRst = s.inRst := rfl
@[simp] theorem State.setPrev_inSync : (s.setPrev b).inSync = s.inSync := rfl
@[simp] theorem State.setPrev_inReady : (s.setPrev b).inReady = s.inReady := rfl
@[simp] theorem State.setPrev_regs : (s.setPrev b).regs = { s.regs with prev := b } := rfl

end setPrev

section setPol
variable (s : State) (b : Bool)

@[simp] theorem State.setPol_params : (s.setPol b).params = s.params := rfl
@[simp] theorem State.setPol_prev : (s.setPol b).prev = s.prev := rfl
@[simp] theorem State.setPol_pol : (s.setPol b).pol = b := rfl
@[simp] theorem State.setPol_ctr : (s.setPol b).ctr = s.ctr := rfl
@[simp] theorem State.setPol_phase : (s.setPol b).phase = s.phase := rfl
@[simp] theorem State.setPol_idx : (s.setPol b).idx = s.idx := rfl
@[simp] theorem State.setPol_dcnt : (s.setPol b).dcnt = s.dcnt := rfl
@[simp] theorem State.setPol_pending : (s.setPol b).pending = s.pending := rfl
@[simp] theorem State.setPol_cycle : (s.setPol b).cycle = s.cycle := rfl
@[simp] theorem State.setPol_tx : (s.setPol b).tx = s.tx := rfl
@[simp] theorem State.setPol_inRst : (s.setPol b).inRst = s.inRst := rfl
@[simp] theorem State.setPol_inSync : (s.setPol b).inSync = s.inSync := rfl
@[simp] theorem State.setPol_inReady : (s.setPol b).inReady = s.inReady := rfl
@[simp] theorem State.setPol_regs : (s.setPol b).regs = { s.regs with pol := b } := rfl

end setPol

section setCtr
variable (s : State) (c : Counter)

@[simp] theorem State.setCtr_params : (s.setCtr c).params = s.params := rfl
@[simp] theorem State.setCtr_prev : (s.setCtr c).prev = s.prev := rfl
@[simp] theorem State.setCtr_pol : (s.setCtr c).pol = s.pol := rfl
@[simp] theorem State.setCtr_ctr : (s.setCtr c).ctr = c := rfl
@[simp] theorem State.setCtr_phase : (s.setCtr c).phase = s.phase := rfl
@[simp] theorem State.setCtr_idx : (s.setCtr c).idx = s.idx := rfl
@[simp] theorem State.setCtr_dcnt : (s.setCtr c).dcnt = s.dcnt := rfl
@[simp] theorem State.setCtr_pending : (s.setCtr c).pending = s.pending := rfl
@[simp] theorem State.setCtr_cycle : (s.setCtr c).cycle = s.cycle := rfl
@[simp] theorem State.setCtr_tx : (s.setCtr c).tx = s.tx := rfl
@[simp] theorem State.setCtr_inRst : (s.setCtr c).inRst = s.inRst := rfl
@[simp] theorem State.setCtr_inSync : (s.setCtr c).inSync = s.inSync := rfl
@[simp] theorem State.setCtr_inReady : (s.setCtr c).inReady = s.inReady := rfl
@[simp] theorem State.setCtr_regs : (s.setCtr c).regs = { s.regs with ctr := c } := rfl

end setCtr

section setSeq
variable (s : State) (q : Sequencer s.params.startupDelayCycles)

@[simp] theorem State.setSeq_params : (s.setSeq q).params = s.params := rfl
@[simp] theorem State.setSeq_prev : (s.setSeq q).prev = s.prev := rfl
@[simp] theorem State.setSeq_pol : (s.setSeq q).pol = s.pol := rfl
@[simp] theorem State.setSeq_ctr : (s.setSeq q).ctr = s.ctr := rfl
@[simp] theorem State.setSeq_phase : (s.setSeq q).phase = q.phase := rfl
@[simp] theorem State.setSeq_idx : (s.setSeq q).idx = q.idx := rfl
@[simp] theorem State.setSeq_dcnt : (s.setSeq q).dcnt = q.dcnt := rfl
@[simp] theorem State.setSeq_pending : (s.setSeq q).pending = s.pending := rfl
@[simp] theorem State.setSeq_cycle : (s.setSeq q).cycle = s.cycle := rfl
@[simp] theorem State.setSeq_tx : (s.setSeq q).tx = s.tx := rfl
@[simp] theorem State.setSeq_inRst : (s.setSeq q).inRst = s.inRst := rfl
@[simp] theorem State.setSeq_inSync : (s.setSeq q).inSync = s.inSync := rfl
@[simp] theorem State.setSeq_inReady : (s.setSeq q).inReady = s.inReady := rfl
@[simp] theorem State.setSeq_regs : (s.setSeq q).regs = { s.regs with phase := q.phase, idx := q.idx, dcnt := q.dcnt } := rfl

end setSeq

section memWriteTx
variable (s : State) (b : Byte)

@[simp] theorem State.memWriteTx_params : (s.memWriteTx b).params = s.params := rfl
@[simp] theorem State.memWriteTx_prev : (s.memWriteTx b).prev = s.prev := rfl
@[simp] theorem State.memWriteTx_pol : (s.memWriteTx b).pol = s.pol := rfl
@[simp] theorem State.memWriteTx_ctr : (s.memWriteTx b).ctr = s.ctr := rfl
@[simp] theorem State.memWriteTx_phase : (s.memWriteTx b).phase = s.phase := rfl
@[simp] theorem State.memWriteTx_idx : (s.memWriteTx b).idx = s.idx := rfl
@[simp] theorem State.memWriteTx_dcnt : (s.memWriteTx b).dcnt = s.dcnt := rfl
@[simp] theorem State.memWriteTx_pending : (s.memWriteTx b).pending = s.pending := rfl
@[simp] theorem State.memWriteTx_cycle : (s.memWriteTx b).cycle = s.cycle := rfl
@[simp] theorem State.memWriteTx_tx : (s.memWriteTx b).tx = s.tx ++ [b] := rfl
@[simp] theorem State.memWriteTx_inRst : (s.memWriteTx b).inRst = s.inRst := rfl
@[simp] theorem State.memWriteTx_inSync : (s.memWriteTx b).inSync = s.inSync := rfl
@[simp] theorem State.memWriteTx_inReady : (s.memWriteTx b).inReady = s.inReady := rfl
@[simp] theorem State.memWriteTx_regs : (s.memWriteTx b).regs = s.regs := rfl

end memWriteTx

section endEdge
variable (s : State)

@[simp] theorem State.endEdge_params : s.endEdge.params = s.params := rfl
@[simp] theorem State.endEdge_prev : s.endEdge.prev = s.prev := rfl
@[simp] theorem State.endEdge_pol : s.endEdge.pol = s.pol := rfl
@[simp] theorem State.endEdge_ctr : s.endEdge.ctr = s.ctr := rfl
@[simp] theorem State.endEdge_phase : s.endEdge.phase = s.phase := rfl
@[simp] theorem State.endEdge_idx : s.endEdge.idx = s.idx := rfl
@[simp] theorem State.endEdge_dcnt : s.endEdge.dcnt = s.dcnt := rfl
@[simp] theorem State.endEdge_pending : s.endEdge.pending = s.pending.tail := rfl
@[simp] theorem State.endEdge_cycle : s.endEdge.cycle = s.cycle + 1 := rfl
@[simp] theorem State.endEdge_tx : s.endEdge.tx = s.tx := rfl
@[simp] theorem State.endEdge_regs : s.endEdge.regs = s.regs := rfl

end endEdge

section resetRegs
variable (s : State)

@[simp] theorem State.resetRegs_params : s.resetRegs.params = s.params := rfl
@[simp] theorem State.resetRegs_prev : s.resetRegs.prev = s.params.prevInit := rfl
@[simp] theorem State.resetRegs_pol : s.resetRegs.pol = true := rfl
@[simp] theorem State.resetRegs_ctr : s.resetRegs.ctr = Counter.zero := rfl
@[simp] theorem State.resetRegs_phase : s.resetRegs.phase = .delay := rfl
@[simp] theorem State.resetRegs_idx : s.resetRegs.idx = 0 := rfl
@[simp] theorem State.resetRegs_dcnt : s.resetRegs.dcnt = s.params.startupDelayCycles := rfl
@[simp] theorem State.resetRegs_pending : s.resetRegs.pending = s.pending := rfl
@[simp] theorem State.resetRegs_cycle : s.resetRegs.cycle = s.cycle := rfl
@[simp] theorem State.resetRegs_tx : s.resetRegs.tx = s.tx := rfl
@[simp] theorem State.resetRegs_inRst : s.resetRegs.inRst = s.inRst := rfl
@[simp] theorem State.resetRegs_inSync : s.resetRegs.inSync = s.inSync := rfl
@[simp] theorem State.resetRegs_inReady : s.resetRegs.inReady = s.inReady := rfl
@[simp] theorem State.resetRegs_regs : s.resetRegs.regs = Regs.atReset s.params := rfl

end resetRegs

section regs
variable (s : State)

@[simp] theorem State.regs_prev : s.regs.prev = s.prev := rfl
@[simp] theorem State.regs_pol : s.regs.pol = s.pol := rfl
@[simp] theorem State.regs_ctr : s.regs.ctr = s.ctr := rfl
@[simp] theorem State.regs_phase : s.regs.phase = s.phase := rfl
@[simp] theorem State.regs_idx : s.regs.idx = s.idx := rfl
@[simp] theorem State.regs_dcnt : s.regs.dcnt = s.dcnt := rfl

end regs

section skip
variable (s : State)

@[simp] theorem State.skip_regs (k : Nat) : (s.skip k).regs = s.regs := rfl
@[simp] theorem State.skip_params (k : Nat) : (s.skip k).params = s.params := rfl
@[simp] theorem State.skip_tx (k : Nat) : (s.skip k).tx = s.tx := rfl
@[simp] theorem State.skip_zero : s.skip 0 = s := rfl

/-- One edge later, the inputs `k` edges ahead are the ones that were `k + 1` edges ahead. -/
theorem State.endEdge_skip (k : Nat) : s.endEdge.skip k = s.skip (k + 1) := by
  simp [State.endEdge, State.skip, Nat.add_assoc, Nat.add_comm 1 k]

end skip

section drive
variable (s : State) (b : Bool)

@[simp] theorem State.driveSync_regs : (s.driveSync b).regs = s.regs := rfl
@[simp] theorem State.driveSync_params : (s.driveSync b).params = s.params := rfl
@[simp] theorem State.driveSync_tx : (s.driveSync b).tx = s.tx := rfl
@[simp] theorem State.driveSync_cycle : (s.driveSync b).cycle = s.cycle := rfl
@[simp] theorem State.driveSync_pending_tail : (s.driveSync b).pending.tail = s.pending.tail := rfl
@[simp] theorem State.driveSync_inRst : (s.driveSync b).inRst = s.inRst := rfl
@[simp] theorem State.driveSync_inSync : (s.driveSync b).inSync = b := rfl
@[simp] theorem State.driveSync_inReady : (s.driveSync b).inReady = s.inReady := rfl

@[simp] theorem State.driveReady_regs : (s.driveReady b).regs = s.regs := rfl
@[simp] theorem State.driveReady_params : (s.driveReady b).params = s.params := rfl
@[simp] theorem State.driveReady_tx : (s.driveReady b).tx = s.tx := rfl
@[simp] theorem State.driveReady_cycle : (s.driveReady b).cycle = s.cycle := rfl
@[simp] theorem State.driveReady_pending_tail : (s.driveReady b).pending.tail = s.pending.tail := rfl
@[simp] theorem State.driveReady_inRst : (s.driveReady b).inRst = s.inRst := rfl
@[simp] theorem State.driveReady_inSync : (s.driveReady b).inSync = s.inSync := rfl
@[simp] theorem State.driveReady_inReady : (s.driveReady b).inReady = b := rfl

@[simp] theorem State.driveRst_regs : (s.driveRst b).regs = s.regs := rfl
@[simp] theorem State.driveRst_params : (s.driveRst b).params = s.params := rfl
@[simp] theorem State.driveRst_tx : (s.driveRst b).tx = s.tx := rfl
@[simp] theorem State.driveRst_cycle : (s.driveRst b).cycle = s.cycle := rfl
@[simp] theorem State.driveRst_pending_tail : (s.driveRst b).pending.tail = s.pending.tail := rfl
@[simp] theorem State.driveRst_inRst : (s.driveRst b).inRst = b := rfl
@[simp] theorem State.driveRst_inSync : (s.driveRst b).inSync = s.inSync := rfl
@[simp] theorem State.driveRst_inReady : (s.driveRst b).inReady = s.inReady := rfl

end drive

/-- The flat registers and the fields are the same data. -/
theorem State.regs_eq_iff (s t : State) :
    t.regs = s.regs ↔
      t.prev = s.prev ∧ t.pol = s.pol ∧ t.ctr = s.ctr ∧ t.phase = s.phase ∧ t.idx = s.idx ∧ t.dcnt = s.dcnt := by
  simp [State.regs]

/-- The sampled bits depend on the inputs to come and the edge number only. -/
theorem State.inputs_congr {s t : State} (hp : t.pending = s.pending) (hc : t.cycle = s.cycle) :
    t.inRst = s.inRst ∧ t.inSync = s.inSync ∧ t.inReady = s.inReady := by
  simp [State.inRst, State.inSync, State.inReady, State.inputs, hp, hc]

theorem SameSurroundings.refl (s : State) : SameSurroundings s s := ⟨rfl, rfl, rfl⟩

end Sys2Proof.Machine
end

