-- ==== Sys2Proof/Laws/Exec.lean ====
section
/-! SUPPORT. For each meaning, everything that holds when it answers a next state; then the same for the step. Later
proofs cite these and never unfold a meaning. -/

namespace Sys2Proof.Machine

variable {s t : State}

theorem execReset_next (h : execReset s = .next t) : s.inRst = true ∧ t = s.resetRegs := by
  unfold execReset at h
  split at h
  · cases h; exact ⟨‹_›, rfl⟩
  · cases h

theorem execDelayTick_next (h : execDelayTick s = .next t) :
    s.inRst = false ∧ s.phase = .delay ∧ s.dcnt ≠ 0 ∧
      t.regs = { s.regs with dcnt := s.dcnt - 1 } ∧ t.tx = s.tx ∧ SameSurroundings s t := by
  unfold execDelayTick at h
  split at h
  case h_1 d hd =>
    split at h
    case isTrue hc =>
      cases h
      have hp : s.phase = .delay := by simp [State.phase, hd, Sequencer.phase]
      have hi : s.idx = 0 := by simp [State.idx, hd, Sequencer.idx]
      have hn : s.dcnt = d.val := by simp [State.dcnt, hd, Sequencer.dcnt]
      refine ⟨hc.1, hp, by rw [hn]; exact hc.2, ?_, rfl, ⟨rfl, rfl, rfl⟩⟩
      simp [State.regs, hp, hi, hn, Sequencer.phase, Sequencer.idx, Sequencer.dcnt]
    case isFalse => cases h
  all_goals cases h

theorem execDelayDone_next (h : execDelayDone s = .next t) :
    s.inRst = false ∧ s.phase = .delay ∧ s.dcnt = 0 ∧
      t.regs = { s.regs with phase := .banner, idx := 0 } ∧ t.tx = s.tx ∧ SameSurroundings s t := by
  unfold execDelayDone at h
  split at h
  case h_1 d hd =>
    split at h
    case isTrue hc =>
      cases h
      have hn : s.dcnt = 0 := by simp [State.dcnt, hd, Sequencer.dcnt, hc.2]
      refine ⟨hc.1, by simp [State.phase, hd, Sequencer.phase], hn, ?_, rfl, ⟨rfl, rfl, rfl⟩⟩
      simp [State.regs, hn, Sequencer.phase, Sequencer.idx, Sequencer.dcnt]
    case isFalse => cases h
  all_goals cases h

theorem execTxStall_next (h : execTxStall s = .next t) :
    s.inRst = false ∧ s.inReady = false ∧ (s.phase = .banner ∨ s.phase = .emit) ∧ t = s := by
  unfold execTxStall at h
  split at h
  case h_1 i hi =>
    split at h
    case isTrue hc => cases h; exact ⟨hc.1, hc.2, .inl (by simp [State.phase, hi, Sequencer.phase]), rfl⟩
    case isFalse => cases h
  case h_2 i hi =>
    split at h
    case isTrue hc => cases h; exact ⟨hc.1, hc.2, .inr (by simp [State.phase, hi, Sequencer.phase]), rfl⟩
    case isFalse => cases h
  all_goals cases h

/-- The index of the banner never wraps: it advances from 0..19 only. -/
theorem bannerIdx_succ {i : Fin 21} (h : i ≠ 20) : (i + 1).val = i.val + 1 := by
  revert i
  decide

/-- The index of the record never wraps: it advances from 0..11 only. -/
theorem emitIdx_succ {i : Fin 13} (h : i ≠ 12) : (i + 1).val = i.val + 1 := by
  revert i
  decide

theorem execBannerSend_next (h : execBannerSend s = .next t) :
    s.inRst = false ∧ s.inReady = true ∧ s.phase = .banner ∧ s.idx ≠ 20 ∧
      t.regs = { s.regs with idx := s.idx + 1 } ∧ t.tx = s.tx ++ [s.txData] ∧ SameSurroundings s t := by
  unfold execBannerSend at h
  split at h
  case h_1 i hi =>
    split at h
    case isTrue hc =>
      cases h
      have hp : s.phase = .banner := by simp [State.phase, hi, Sequencer.phase]
      have hx : s.idx = i.val := by simp [State.idx, hi, Sequencer.idx]
      have hd : s.dcnt = 0 := by simp [State.dcnt, hi, Sequencer.dcnt]
      refine ⟨hc.1, hc.2.1, hp, fun h20 => hc.2.2 (Fin.ext (hx ▸ h20)), ?_, ?_, ⟨rfl, rfl, rfl⟩⟩
      · simp [State.regs, hp, hx, hd, Sequencer.phase, Sequencer.idx, Sequencer.dcnt, bannerIdx_succ hc.2.2]
      · simp [State.txData, hi]
    case isFalse => cases h
  all_goals cases h

theorem execBannerLast_next (h : execBannerLast s = .next t) :
    s.inRst = false ∧ s.inReady = true ∧ s.phase = .banner ∧ s.idx = 20 ∧
      t.regs = { s.regs with phase := .poll, idx := 0 } ∧ t.tx = s.tx ++ [lf] ∧ SameSurroundings s t := by
  unfold execBannerLast at h
  split at h
  case h_1 i hi =>
    split at h
    case isTrue hc =>
      cases h
      have hd : s.dcnt = 0 := by simp [State.dcnt, hi, Sequencer.dcnt]
      refine ⟨hc.1, hc.2.1, by simp [State.phase, hi, Sequencer.phase], by simp [State.idx, hi, Sequencer.idx, hc.2.2], ?_,
        rfl, ⟨rfl, rfl, rfl⟩⟩
      simp [State.regs, hd, Sequencer.phase, Sequencer.idx, Sequencer.dcnt]
    case isFalse => cases h
  all_goals cases h

theorem execPollIdle_next (h : execPollIdle s = .next t) :
    s.inRst = false ∧ s.phase = .poll ∧ s.inSync = s.prev ∧ t = s := by
  unfold execPollIdle at h
  split at h
  case h_1 hq =>
    split at h
    case isTrue hc => cases h; exact ⟨hc.1, by simp [State.phase, hq, Sequencer.phase], hc.2, rfl⟩
    case isFalse => cases h
  all_goals cases h

theorem execPollEdge_next (h : execPollEdge s = .next t) :
    s.inRst = false ∧ s.phase = .poll ∧ s.inSync ≠ s.prev ∧
      t.regs = { s.regs with prev := s.inSync, phase := .emit, idx := 0 } ∧ t.tx = s.tx ∧ SameSurroundings s t := by
  unfold execPollEdge at h
  split at h
  case h_1 hq =>
    split at h
    case isTrue hc =>
      cases h
      have hd : s.dcnt = 0 := by simp [State.dcnt, hq, Sequencer.dcnt]
      refine ⟨hc.1, by simp [State.phase, hq, Sequencer.phase], hc.2, ?_, rfl, ⟨rfl, rfl, rfl⟩⟩
      simp [State.regs, hd, Sequencer.phase, Sequencer.idx, Sequencer.dcnt]
    case isFalse => cases h
  all_goals cases h

theorem execEmitSend_next (h : execEmitSend s = .next t) :
    s.inRst = false ∧ s.inReady = true ∧ s.phase = .emit ∧ s.idx ≠ 12 ∧
      t.regs = { s.regs with idx := s.idx + 1 } ∧ t.tx = s.tx ++ [s.txData] ∧ SameSurroundings s t := by
  unfold execEmitSend at h
  split at h
  case h_1 i hi =>
    split at h
    case isTrue hc =>
      cases h
      have hp : s.phase = .emit := by simp [State.phase, hi, Sequencer.phase]
      have hx : s.idx = i.val := by simp [State.idx, hi, Sequencer.idx]
      have hd : s.dcnt = 0 := by simp [State.dcnt, hi, Sequencer.dcnt]
      refine ⟨hc.1, hc.2.1, hp, fun h12 => hc.2.2 (Fin.ext (hx ▸ h12)), ?_, ?_, ⟨rfl, rfl, rfl⟩⟩
      · simp [State.regs, hp, hx, hd, Sequencer.phase, Sequencer.idx, Sequencer.dcnt, emitIdx_succ hc.2.2]
      · simp [State.txData, hi]
    case isFalse => cases h
  all_goals cases h

theorem execEmitLast_next (h : execEmitLast s = .next t) :
    s.inRst = false ∧ s.inReady = true ∧ s.phase = .emit ∧ s.idx = 12 ∧
      t.regs = { s.regs with pol := toggle s.pol, ctr := increment s.ctr, phase := .poll, idx := 0 } ∧
      t.tx = s.tx ++ [lf] ∧ SameSurroundings s t := by
  unfold execEmitLast at h
  split at h
  case h_1 i hi =>
    split at h
    case isTrue hc =>
      cases h
      have hd : s.dcnt = 0 := by simp [State.dcnt, hi, Sequencer.dcnt]
      refine ⟨hc.1, hc.2.1, by simp [State.phase, hi, Sequencer.phase], by simp [State.idx, hi, Sequencer.idx, hc.2.2], ?_,
        rfl, ⟨rfl, rfl, rfl⟩⟩
      simp [State.regs, hd, Sequencer.phase, Sequencer.idx, Sequencer.dcnt]
    case isFalse => cases h
  all_goals cases h

/-- A step that answers a next state performed the selected operation and ended the edge. -/
theorem step_next (h : step s = .next t) :
    ∃ i u, s.selected = some i ∧ exec i s = .next u ∧ t = u.endEdge := by
  unfold step at h
  split at h
  case h_1 i hi =>
    split at h
    case h_1 u hu => cases h; exact ⟨i, u, hi, hu, rfl⟩
    all_goals cases h
  case h_2 => cases h

/-- Of the inputs an edge reads its three sampled bits only: other pins that sample the same, with the same inputs after
them, make the same step. -/
theorem step_of_same_samples (s : State) {p : List EdgeInputs} (hTail : p.tail = s.pending.tail)
    (hRst : State.inRst { s with pending := p } = s.inRst) (hSync : State.inSync { s with pending := p } = s.inSync)
    (hReady : State.inReady { s with pending := p } = s.inReady) : step { s with pending := p } = step s := by
  have hSel : State.selected { s with pending := p } = s.selected := by
    simp only [State.selected, State.conditionWord, State.edge, hRst, hSync, hReady]
    rfl
  unfold step
  rw [hSel]
  cases hi : s.selected with
  | none => rfl
  | some i =>
    cases i <;> simp only [exec, execReset, execDelayTick, execDelayDone, execTxStall, execBannerSend, execBannerLast,
      execPollIdle, execPollEdge, execEmitSend, execEmitLast, hRst, hSync, hReady]
    case reset => split_ifs <;> simp [State.endEdge, State.resetRegs, hTail]
    all_goals
      cases hq : s.seq <;> dsimp only <;> (try split_ifs) <;>
        simp [State.endEdge, State.setSeq, State.setPrev, State.setPol, State.setCtr, State.memWriteTx, hTail, hq]

end Sys2Proof.Machine
end

