-- ==== Sys2Proof/Laws/PerInstr.lean ====
section
/-! SUPPORT. Statements about every operation as syntax, one lemma per constructor. -/

namespace Sys2Proof.Laws.SelectionRow

/-- The columns of an operation's row agree (30_encoding.md R61): the pattern fits the match value, the match value
sets no bit outside the mask, and the mask covers exactly the bits that hold no letter. -/
def Statement (i : Instr) : Prop :=
  decodeWord i.matchValue = some i ∧ i.matchValue &&& ~~~ i.mask = 0#6 ∧ i.mask = ~~~ i.letterBits

theorem reset : Statement .reset := by unfold Statement; decide
theorem delayTick : Statement .delayTick := by unfold Statement; decide
theorem delayDone : Statement .delayDone := by unfold Statement; decide
theorem txStall : Statement .txStall := by unfold Statement; decide
theorem bannerSend : Statement .bannerSend := by unfold Statement; decide
theorem bannerLast : Statement .bannerLast := by unfold Statement; decide
theorem pollIdle : Statement .pollIdle := by unfold Statement; decide
theorem pollEdge : Statement .pollEdge := by unfold Statement; decide
theorem emitSend : Statement .emitSend := by unfold Statement; decide
theorem emitLast : Statement .emitLast := by unfold Statement; decide

end Sys2Proof.Laws.SelectionRow
end

