-- ==== Sys2Proof/Tests/Slice0.lean ====
section
/-! SUPPORT. Our own tests. Expected values are copied from spec/95_test_vectors.md (V1 to V24, sections 2 to 6, program P1)
or worked out by hand from the rules. The witnesses at the end show, for each statement that has hypotheses, a concrete
state that meets them all. -/

namespace Sys2Proof.Tests

open Sys2Proof Sys2Proof.Machine

/-! ## Well-formedness: a term that each check refuses -/

theorem test_letter_on_fixed_rst_bit_is_ill_formed : (CodedOp.mk .reset 0b100000#6).wellFormed = false := by decide
theorem test_letter_on_fixed_phase_bit_is_ill_formed : (CodedOp.mk .pollEdge 0b001000#6).wellFormed = false := by decide
theorem test_letter_on_fixed_last_bit_is_ill_formed : (CodedOp.mk .emitSend 0b000001#6).wellFormed = false := by decide
theorem test_letters_of_stall_are_well_formed : (CodedOp.mk .txStall 0b010101#6).wellFormed = true := by decide

/-! ## Decoding, words written out from the patterns of 30_encoding.md R61 (section 2.1 of the vectors) -/

theorem test_decode_reset : decodeWord 0b100110#6 = some .reset := by decide              -- 1ppetl
theorem test_decode_delayTick : decodeWord 0b000100#6 = some .delayTick := by decide      -- 000et0
theorem test_decode_delayDone : decodeWord 0b000011#6 = some .delayDone := by decide      -- 000et1
theorem test_decode_txStall_banner : decodeWord 0b001001#6 = some .txStall := by decide   -- 0p1e0l, p = 0
theorem test_decode_txStall_emit : decodeWord 0b011100#6 = some .txStall := by decide     -- 0p1e0l, p = 1
theorem test_decode_bannerSend : decodeWord 0b001010#6 = some .bannerSend := by decide    -- 001e10
theorem test_decode_bannerLast : decodeWord 0b001111#6 = some .bannerLast := by decide    -- 001e11
theorem test_decode_pollIdle : decodeWord 0b010001#6 = some .pollIdle := by decide        -- 0100tl
theorem test_decode_pollEdge : decodeWord 0b010111#6 = some .pollEdge := by decide        -- 0101tl
theorem test_decode_emitSend : decodeWord 0b011110#6 = some .emitSend := by decide        -- 011e10
theorem test_decode_emitLast : decodeWord 0b011011#6 = some .emitLast := by decide        -- 011e11

theorem test_decode_refuses_no_byte : decodeBytes [] = .error .noByte := by rfl
theorem test_decode_refuses_seven_bits : decodeBytes [0x40#8] = .error .notSixBits := by rfl
theorem test_decode_keeps_letters : decodeBytes [0x1D#8, 0xFF#8] = .ok (⟨.txStall, 0b010101#6⟩, [0xFF#8]) := by rfl

/-- The rows of section 2.1 of the vectors, each word in the table's order. -/
theorem test_decode_poll_row :
    [0x10#6, 0x11#6, 0x12#6, 0x13#6, 0x14#6, 0x15#6, 0x16#6, 0x17#6].map decodeWord =
      [some .pollIdle, some .pollIdle, some .pollIdle, some .pollIdle,
        some .pollEdge, some .pollEdge, some .pollEdge, some .pollEdge] := by decide

/-! ## One edge: the vectors of section 3, `N = 3` -/

/-- A launch state of the vectors, with the inputs of its one edge. -/
def launch (prevInit prev pol : Bool) (n : Nat) (seq : Sequencer 3) (rst sync ready : Bool) : State :=
  { params := ⟨prevInit, 3⟩, prev := prev, pol := pol, ctr := digits n, seq := seq,
    pending := [⟨.level rst, .level sync, .level ready⟩], cycle := 0, tx := [] }

/-- A line of the vector table: the condition word, the outputs before the edge, the bytes transferred and the
registers after it. -/
def vector (s : State) (c : BitVec 6) (valid : Bool) (data : Byte) (tx : List Byte) (after : Regs) : Bool :=
  s.conditionWord.toBits == c && s.txValid == valid && s.txData == data &&
    match step s with
    | .next t => t.regs == after && t.tx == tx
    | .fault _ => false
    | .refused _ => false

theorem test_V1_reset_from_emit :
    vector (launch false false true 42 (.emit 5) true false true) 0b111010#6 false 0x30#8 []
      ⟨false, true, digits 0, .delay, 0, 3⟩ = true := by decide
theorem test_V4_reset_from_banner :
    vector (launch true false true 0 (.banner 20) true false true) 0b101011#6 false 0x0A#8 []
      ⟨true, true, digits 0, .delay, 0, 3⟩ = true := by decide
theorem test_V5_delay_tick :
    vector (launch false false true 0 (.delay 3) false true false) 0b000100#6 false 0x00#8 []
      ⟨false, true, digits 0, .delay, 0, 2⟩ = true := by decide
theorem test_V6_delay_last_tick :
    vector (launch false false true 0 (.delay 1) false false true) 0b000010#6 false 0x00#8 []
      ⟨false, true, digits 0, .delay, 0, 0⟩ = true := by decide
theorem test_V7_delay_done :
    vector (launch false false true 0 (.delay 0) false true true) 0b000111#6 false 0x00#8 []
      ⟨false, true, digits 0, .banner, 0, 0⟩ = true := by decide
theorem test_V8_stall_in_banner :
    vector (launch false false true 0 (.banner 7) false true false) 0b001100#6 true 0x53#8 []
      ⟨false, true, digits 0, .banner, 7, 0⟩ = true := by decide
theorem test_V9_stall_in_emit_at_lf :
    vector (launch false true true 42 (.emit 12) false false false) 0b011101#6 true 0x0A#8 []
      ⟨true, true, digits 42, .emit, 12, 0⟩ = true := by decide
theorem test_V10_banner_first_byte :
    vector (launch false false true 0 (.banner 0) false false true) 0b001010#6 true 0x78#8 [0x78#8]
      ⟨false, true, digits 0, .banner, 1, 0⟩ = true := by decide
theorem test_V11_banner_cr :
    vector (launch false false true 0 (.banner 19) false true true) 0b001110#6 true 0x0D#8 [0x0D#8]
      ⟨false, true, digits 0, .banner, 20, 0⟩ = true := by decide
theorem test_V12_banner_last :
    vector (launch false false true 0 (.banner 20) false false true) 0b001011#6 true 0x0A#8 [0x0A#8]
      ⟨false, true, digits 0, .poll, 0, 0⟩ = true := by decide
theorem test_V13_poll_idle_low :
    vector (launch false false true 0 .poll false false false) 0b010000#6 false 0x00#8 []
      ⟨false, true, digits 0, .poll, 0, 0⟩ = true := by decide
theorem test_V14_poll_idle_high :
    vector (launch false true false 5 .poll false true true) 0b010010#6 false 0x00#8 []
      ⟨true, false, digits 5, .poll, 0, 0⟩ = true := by decide
theorem test_V15_poll_edge_rising :
    vector (launch false false true 0 .poll false true false) 0b010100#6 false 0x00#8 []
      ⟨true, true, digits 0, .emit, 0, 0⟩ = true := by decide
theorem test_V16_poll_edge_falling :
    vector (launch false true false 5 .poll false false true) 0b010110#6 false 0x00#8 []
      ⟨false, false, digits 5, .emit, 0, 0⟩ = true := by decide
theorem test_V18_emit_comma :
    vector (launch false true false 123456789 (.emit 1) false false true) 0b011110#6 true 0x2C#8 [0x2C#8]
      ⟨true, false, digits 123456789, .emit, 2, 0⟩ = true := by decide
theorem test_V19_emit_most_significant_digit :
    vector (launch false true false 123456789 (.emit 2) false true true) 0b011010#6 true 0x31#8 [0x31#8]
      ⟨true, false, digits 123456789, .emit, 3, 0⟩ = true := by decide
theorem test_V23_emit_last_carry :
    vector (launch false false false 99 (.emit 12) false false true) 0b011011#6 true 0x0A#8 [0x0A#8]
      ⟨false, true, digits 100, .poll, 0, 0⟩ = true := by decide
theorem test_V24_emit_last_wrap :
    vector (launch false false false 999999999 (.emit 12) false true true) 0b011111#6 true 0x0A#8 [0x0A#8]
      ⟨false, true, digits 0, .poll, 0, 0⟩ = true := by decide

/-! ## INCREMENT, FRAME_BYTE, the banner, the trace syntax (sections 4, 5, 6, 8) -/

theorem test_increment_carry_chain : increment (digits 99999999) = digits 100000000 := by decide   -- "099999999"
theorem test_increment_one_carry : increment (digits 909090909) = digits 909090910 := by decide
theorem test_digits_order : digits 123456789 = ⟨9, 8, 7, 6, 5, 4, 3, 2, 1⟩ := by decide
theorem test_frame_bytes :                                                             -- "0,123456789\r\n"
    record false (digits 123456789) =
      [0x30#8, 0x2C#8, 0x31#8, 0x32#8, 0x33#8, 0x34#8, 0x35#8, 0x36#8, 0x37#8, 0x38#8, 0x39#8, 0x0D#8, 0x0A#8] := by decide
theorem test_banner_text :
    String.ofList (bannerRom.map fun b => Char.ofNat b.toNat) = "x-IMU3-SA-Sync v1.0\r\n" := by decide
theorem test_counter_text : String.ofList (digits 42).text = "000000042" := by decide              -- R77
theorem test_trace_line_with_byte :                                                    -- P1, edge 14
    (launch false false true 0 (.banner 10) false false true).traceLine 14 = "14: BANNER_SEND c=001010 tx=53" := by decide
theorem test_trace_line_without_byte :                                                 -- P3, edge 16
    (launch false true true 42 (.emit 12) false true false).traceLine 16 = "16: TX_STALL c=011001" := by decide
theorem test_packed_digits : (digits 123456789).packed = 0x123456789#36 := by decide   -- R18: d0 = 9 in bits [3:0]
theorem test_dcnt_width : [0, 1, 2, 3, 4, 255, 256].map (fun n => (Params.mk false n).dcntWidth) =
    [1, 1, 2, 2, 3, 8, 9] := by decide                                                 -- D27: smallest w >= 1, N < 2^w

/-- An operation asked to run outside its Condition is refused: EMIT_LAST at index 5 (log entry 6). -/
theorem test_unselected_operation_is_refused :
    execEmitLast (launch false false true 0 (.emit 5) false false true) = .refused .notSelected := by rfl

/-- The word the host places for DELAY_TICK runs DELAY_TICK right after reset, whatever the parameters are. -/
theorem test_placed_word_runs_after_reset : (State.reset.withFetchWord 8 0x00).selected = some .delayTick := by decide

/-! ## Witnesses: for each statement with hypotheses, a state that meets them all -/

/-- A machine with no startup wait, in a phase, with the line at `sync` and the sink ready over the next `k` edges. -/
def driven (seq : Sequencer 0) (sync : Bool) (k : Nat) : State :=
  { params := ⟨false, 0⟩, prev := false, pol := true, ctr := Counter.zero, seq := seq,
    pending := List.replicate k ⟨.level false, .level sync, .level true⟩, cycle := 0, tx := [] }

/-- What holds of the state an outcome answers. -/
def answers (o : Host.Outcome State Fault Refusal) (p : State → Bool) : Bool :=
  match o with
  | .next t => p t
  | .fault _ => false
  | .refused _ => false

theorem witness_ResetSetsEveryRegister :
    answers (exec .reset (launch true false false 7 .poll true false true)) (fun _ => true) = true := by decide
theorem witness_StepPerformsTheSelectedOperation :
    decode (launch false false true 0 (.banner 3) false true true).conditionWord = some .bannerSend := by decide
theorem witness_DecodeOfEncodeIsIdentity : (CodedOp.mk .reset 0b011111#6).wellFormed = true := by decide
theorem witness_EncodeOfDecodeIsIdentity : decodeBytes [0x3F#8, 0x80#8] = .ok (⟨.reset, 0b011111#6⟩, [0x80#8]) := by rfl
theorem witness_UnselectedOperationIsRefused :
    (launch false false true 0 .poll false true true).selected ≠ some .emitSend := by decide
theorem witness_PlacedWordRunsNext : decodeTableWord 8 0x3F = some .reset ∧ decodeTableWord 8 0 = some .delayTick := by decide

theorem witness_ResetThenPhaseThenStall_reset : (launch false false true 0 (.emit 12) true true true).inRst = true := by decide
theorem witness_ResetThenPhaseThenStall_delay :
    let s := launch false false true 0 (.delay 0) false true true
    s.inRst = false ∧ s.phase = .delay := by decide
theorem witness_ResetThenPhaseThenStall_stall :
    let s := launch false false true 0 (.emit 12) false true false
    s.inRst = false ∧ (s.phase = .banner ∨ s.phase = .emit) ∧ s.inReady = false := by decide
theorem witness_ResetThenPhaseThenStall_banner :
    let s := launch false false true 0 (.banner 20) false true true
    s.inRst = false ∧ s.phase = .banner ∧ s.inReady = true := by decide
theorem witness_ResetThenPhaseThenStall_emit :
    let s := launch false false true 0 (.emit 12) false true true
    s.inRst = false ∧ s.phase = .emit ∧ s.inReady = true := by decide
theorem witness_ResetThenPhaseThenStall_poll :
    let s := launch false false true 0 .poll false true true
    s.inRst = false ∧ s.phase = .poll := by decide

theorem witness_ResetOverridesEverything : (launch true false false 5 (.emit 7) true true true).inRst = true := by decide
theorem witness_DelayTickCountsDown :
    let s := launch false false true 0 (.delay 3) false true true
    s.inRst = false ∧ s.phase = .delay ∧ s.dcnt ≠ 0 := by decide
theorem witness_DelayTickCountsDown_noWait : (driven (.delay 0) true 1).params.startupDelayCycles = 0 := by decide
theorem witness_DelayDoneEntersBanner :
    let s := launch false false true 0 (.delay 0) false true true
    s.inRst = false ∧ s.phase = .delay ∧ s.dcnt = 0 := by decide
theorem witness_TxStallChangesNothing :
    let s := launch false false true 0 (.banner 20) false true false
    s.inRst = false ∧ (s.phase = .banner ∨ s.phase = .emit) ∧ s.inReady = false := by decide
theorem witness_BannerSendTransfersOneByte :
    let s := launch false false true 0 (.banner 19) false true true
    s.inRst = false ∧ s.phase = .banner ∧ s.inReady = true ∧ s.idx ≠ 20 := by decide
theorem witness_BannerLastEntersPolling :
    let s := launch false false true 0 (.banner 20) false true true
    s.inRst = false ∧ s.phase = .banner ∧ s.inReady = true ∧ s.idx = 20 := by decide
theorem witness_PollIdleChangesNothing :
    let s := launch false true true 0 .poll false true true
    s.inRst = false ∧ s.phase = .poll ∧ s.inSync = s.prev := by decide
theorem witness_PollEdgeRecordsTheLevel :
    let s := launch false true true 0 .poll false false true
    s.inRst = false ∧ s.phase = .poll ∧ s.inSync ≠ s.prev := by decide
theorem witness_EmitSendTransfersOneByte :
    let s := launch false true true 0 (.emit 11) false false true
    s.inRst = false ∧ s.phase = .emit ∧ s.inReady = true ∧ s.idx ≠ 12 := by decide
theorem witness_EmitLastTogglesAndIncrements :
    let s := launch false true false 999999999 (.emit 12) false false true
    s.inRst = false ∧ s.phase = .emit ∧ s.inReady = true ∧ s.idx = 12 := by decide

/-- OnlyTheWritersWrite and PhaseAndIndexAfterEachOperation: an operation that answers, and each field changed by one. -/
theorem witness_OnlyTheWritersWrite_emitLast :
    let s := launch false false true 42 (.emit 12) false true true
    answers (exec .emitLast s) (fun t => t.pol != s.pol && t.ctr != s.ctr && t.phase != s.phase && t.idx != s.idx &&
      t.tx != s.tx) = true := by decide
theorem witness_OnlyTheWritersWrite_pollEdge :
    let s := launch false false true 42 .poll false true true
    answers (exec .pollEdge s) (fun t => t.prev != s.prev) = true := by decide
theorem witness_OnlyTheWritersWrite_delayTick :
    let s := launch false false true 0 (.delay 1) false true true
    answers (exec .delayTick s) (fun t => t.dcnt != s.dcnt) = true := by decide

theorem witness_RegistersStayInTheirBounds :
    (launch false false true 0 (.banner 20) false true true).phase = .banner ∧
    (launch false false true 0 (.emit 12) false true true).phase = .emit ∧
    (launch false false true 0 (.delay 3) false true true).phase = .delay ∧
    (launch false false true 0 .poll false true true).phase = .poll := by decide
theorem witness_EveryStepKeepsParity :
    let s := launch false false false 999999999 (.emit 12) false true true
    (s.pol = true ↔ (s.ctr.digit 0).val % 2 = 0) ∧ answers (step s) (fun _ => true) = true := by decide
theorem witness_CounterCountsCompletedRecords :
    let s := launch false false false 999999999 (.emit 12) false true true
    answers (run 1 s) (fun _ => true) = true ∧ Instr.reset ∉ performed 1 s := by decide
theorem witness_CounterCountsCompletedRecords_fromReset :
    let s := driven (.delay 0) true 2
    s.regs = Regs.atReset s.params ∧ answers (run 2 s) (fun _ => true) = true ∧ Instr.reset ∉ performed 2 s := by decide
theorem witness_ToggleAndIncrementAreAtomic :
    let s := launch false false true 42 (.emit 12) false true true
    answers (step s) (fun _ => true) = true ∧ s.inRst = false := by decide
theorem witness_ModesAreEnteredAndLeftAsStated_startup :
    let s := launch false false true 0 (.banner 20) false true true
    answers (step s) (fun t => t.mode == .polling) = true ∧ s.mode = .startup ∧ s.inRst = false := by decide
theorem witness_ModesAreEnteredAndLeftAsStated_polling :
    let s := launch false false true 0 (.emit 12) true true true
    answers (step s) (fun t => t.mode == .startup) = true ∧ s.mode = .polling := by decide
theorem witness_PollingNeverExitsOnItsOwn_poll :
    let s := launch false false true 0 .poll false true true
    answers (step s) (fun _ => true) = true ∧ s.inRst = false ∧ s.phase = .poll := by decide
theorem witness_PollingNeverExitsOnItsOwn_emit :
    let s := launch false false true 0 (.emit 12) false true true
    answers (step s) (fun _ => true) = true ∧ s.inRst = false ∧ s.phase = .emit := by decide

theorem witness_TxDataByState_banner :
    let s := launch false false true 0 (.banner 20) false true true
    s.phase = .banner ∧ s.idx = (20 : Fin 21).val := by decide
theorem witness_TxDataByState_emit :
    let s := launch false false true 0 (.emit 12) false true true
    s.phase = .emit ∧ s.idx = (12 : Fin 13).val := by decide
theorem witness_TxDataByState_idle :
    (launch false false true 0 (.delay 3) false true true).phase = .delay ∧
    (launch false false true 0 .poll false true true).phase = .poll := by decide
theorem witness_BytesAreTransferredByTheHandshake :
    let s := launch false false true 0 (.banner 20) false true true
    answers (step s) (fun _ => true) = true ∧ s.txValid = true ∧ s.inReady = true := by decide

/-- A stalled offer over two edges. -/
theorem witness_OfferIsHeldUntilTaken :
    let s : State := { launch false false true 42 (.emit 12) false true false with
      pending := List.replicate 2 ⟨.level false, .level false, .level false⟩ }
    (s.phase = .banner ∨ s.phase = .emit) ∧ (∀ k, k < 2 → (s.skip k).inRst = false) ∧
      ∀ k, k < 2 → (s.skip k).inReady = false := by decide
theorem witness_ReadyIsIgnoredWithoutAnOffer : (launch false false true 0 (.emit 3) true true true).txValid = false := by decide
theorem witness_SyncIsSampledInPollOnly :
    let s := launch false false true 0 .poll false true true
    s.phase = .poll ∧ s.inRst = false ∧ answers (step s) (fun _ => true) = true ∧
      (launch false false true 0 (.emit 0) false true true).phase ≠ .poll := by decide
/-- Each clause of the draws: both pins a draw, both a level; the draw of `sync_in` in POLL without reset. -/
theorem witness_ViolatedSampleIsOneOfTheTwoLevels_draw :
    let s : State := { launch false false true 0 .poll false true true with pending := [] }
    s.inputs.sync = .draw ∧ s.inputs.rst = .draw := by decide
theorem witness_ViolatedSampleIsOneOfTheTwoLevels_drawInPoll :
    let s : State := { launch false false true 0 .poll false true true with
      pending := [⟨.level false, .draw, .level true⟩] }
    s.inputs.sync = .draw ∧ s.phase = .poll ∧ s.inRst = false := by decide
theorem witness_ViolatedSampleIsOneOfTheTwoLevels_level :
    let s := launch false false true 0 .poll false true true
    s.inputs.sync = .level true ∧ s.inputs.rst = .level false := by decide
theorem witness_DirectionOfTheEdgeHasNoEffect :
    ∃ e rest b, (launch false false true 0 .poll false true true).pending = e :: rest ∧ e.sync = .level b :=
  ⟨_, _, true, rfl, rfl⟩
theorem witness_ChangesCoalesceByParity_odd :
    let s := launch false false true 0 .poll false true true
    s.phase = .poll ∧ s.inRst = false ∧ [false, true, false, true].head? = some s.prev ∧
      [false, true, false, true].getLast? = some s.inSync ∧ answers (step s) (fun _ => true) = true ∧
      lineChanges [false, true, false, true] % 2 = 1 := by decide
theorem witness_ChangesCoalesceByParity_even :
    let s := launch false false true 0 .poll false false true
    s.phase = .poll ∧ s.inRst = false ∧ [false, true, false].head? = some s.prev ∧
      [false, true, false].getLast? = some s.inSync ∧ answers (step s) (fun _ => true) = true ∧
      lineChanges [false, true, false] % 2 = 0 := by decide

theorem witness_CounterValueAndDigits : (999999999 : Nat) < 1000000000 := by decide
theorem witness_FrameBytesAreTheRecord :
    (2 : Fin 13).val + (8 : Fin 9).val = 10 ∧ (10 : Fin 13).val + (0 : Fin 9).val = 10 := by decide
theorem witness_OnlyListedCharactersAreSent :
    let s := launch false false true 0 (.emit 0) false true true
    answers (step s) (fun t => t.tx == s.tx ++ [0x31#8]) = true := by decide
theorem witness_DelayCounterWidthIsSmallest : 1 ≤ 2 ∧ (Params.mk false 3).startupDelayCycles < 2 ^ 2 := by decide

theorem witness_SendByteIsStallsThenOneTransfer :
    let s : State := { launch false false true 42 (.emit 12) false true false with
      pending := [⟨.level false, .level true, .level false⟩, ⟨.level false, .level true, .level true⟩] }
    (s.phase = .banner ∨ s.phase = .emit) ∧ (∀ k, k < 1 + 1 → (s.skip k).inRst = false) ∧
      (∀ k, k < 1 → (s.skip k).inReady = false) ∧ (s.skip 1).inReady = true := by decide
theorem witness_HeldResetIsOneReset :
    let s : State := { launch false false true 42 (.emit 5) true true true with
      pending := List.replicate 2 ⟨.level true, .level true, .level true⟩ }
    ∀ k, k < 1 + 1 → (s.skip k).inRst = true := by decide
theorem witness_DelayLastsItsCountPlusOne :
    let s : State := { launch false false true 0 (.delay 3) false true true with
      pending := List.replicate 4 ⟨.level false, .level true, .level false⟩ }
    s.phase = .delay ∧ ∀ k, k < s.dcnt + 1 → (s.skip k).inRst = false := by decide
theorem witness_StartupSendsTheBanner :
    let s := driven (.delay 0) true 22
    s.regs = Regs.atReset s.params ∧ (∀ k, k < 0 + 1 + 21 → (s.skip k).inRst = false) ∧
      0 < 21 ∧ (List.range 21).countP (fun k => (s.skip (0 + 1 + k)).inReady) = 21 ∧
      (s.skip (0 + 1 + (21 - 1))).inReady = true := by decide
theorem witness_DetectedEdgeSendsOneRecord :
    let s := driven .poll true 14
    s.phase = .poll ∧ s.inSync ≠ s.prev ∧ (∀ k, k < 13 + 1 → (s.skip k).inRst = false) ∧
      0 < 13 ∧ (List.range 13).countP (fun k => (s.skip (1 + k)).inReady) = 13 ∧
      (s.skip (1 + (13 - 1))).inReady = true := by decide
theorem witness_StreamIsBannerThenNumberedRecords :
    let s := driven (.delay 0) true 2
    s.regs = Regs.atReset s.params ∧ answers (run 2 s) (fun _ => true) = true ∧ Instr.reset ∉ performed 2 s := by decide

/-- The same in Polling, one byte into record number 0: one edge of waiting, 21 of banner, POLL_EDGE, EMIT_SEND. -/
theorem witness_StreamIsBannerThenNumberedRecords_polling :
    let s := driven (.delay 0) true 24
    s.regs = Regs.atReset s.params ∧ Instr.reset ∉ performed 24 s ∧
      answers (run 24 s) (fun t => t.mode == .polling && t.idx == 1) = true := by decide

/-- The line falls during the record: the minimum of 70_reset_and_hazards.md R138. -/
theorem witness_DetectedEdgesAreFourteenApart :
    let s : State := { driven .poll true 1 with
      pending := ⟨.level false, .level true, .level true⟩ ::
        List.replicate 14 ⟨.level false, .level false, .level true⟩ }
    s.selected = some .pollEdge ∧ Instr.reset ∉ performed 14 s ∧
      answers (run 14 s) (fun t => t.selected == some .pollEdge) = true := by decide
theorem witness_FirstPollComparesWithPrevInit :
    let s := driven (.delay 0) true 23
    s.regs = Regs.atReset s.params ∧ Instr.reset ∉ performed 22 s ∧ Instr.pollEdge ∉ performed 22 s ∧
      answers (run 22 s) (fun t => t.phase == .poll && !t.inRst && t.inSync != s.params.prevInit) = true := by decide
theorem witness_SteadyLineSendsNothing :
    let s := driven .poll false 3
    s.phase = .poll ∧ (∀ k, k < 3 → (s.skip k).inRst = false) ∧ ∀ k, k < 3 → (s.skip k).inSync = s.prev := by decide

end Sys2Proof.Tests
end

section
/-! PROOFS. The registers and their reset values (10_state.md): the counter as a number below ten to the nine, which
Mathlib's positional notation `finFunctionFinEquiv : (Fin 9 → Fin 10) ≃ Fin (10 ^ 9)` describes. -/

namespace Sys2Proof.Machine

/-- The value weighs the digit by number with its power of ten (R19). -/
theorem Counter.val_eq_sum (c : Counter) : c.val = ∑ i : Fin 9, (c.digit i).val * 10 ^ i.val := by
  simp [Counter.val, Counter.digit, Fin.sum_univ_succ, Nat.add_assoc]

theorem Counter.val_eq_finFunctionFinEquiv (c : Counter) : c.val = (finFunctionFinEquiv c.digit).val :=
  c.val_eq_sum.trans (finFunctionFinEquiv_apply c.digit).symm

theorem Counter.val_lt (c : Counter) : c.val < 1000000000 := by
  rw [c.val_eq_finFunctionFinEquiv]
  exact (finFunctionFinEquiv c.digit).isLt

theorem digits_digit_val (n : Nat) (i : Fin 9) : ((digits n).digit i).val = n / 10 ^ i.val % 10 := by
  fin_cases i <;> simp [digits, Counter.digit]

theorem digits_digit_eq_symm (n : Fin (10 ^ 9)) : (digits n).digit = finFunctionFinEquiv.symm n := by
  funext i
  exact Fin.ext (digits_digit_val n i)

theorem digits_val (c : Counter) : digits c.val = c := by
  have h : (digits c.val).digit = c.digit := by
    rw [c.val_eq_finFunctionFinEquiv, digits_digit_eq_symm, Equiv.symm_apply_apply]
  exact Counter.ext_digit (congrFun h)

theorem val_digits {n : Nat} (h : n < 1000000000) : (digits n).val = n := by
  have hd := digits_digit_eq_symm ⟨n, h⟩
  rw [Counter.val_eq_finFunctionFinEquiv, hd, Equiv.apply_symm_apply]

/-- Settles O45: the digits of a counter and the decimal digits of a number are the two directions of one
positional notation. -/
theorem counterValueAndDigits : Obligations.CounterValueAndDigits :=
  ⟨Counter.val_eq_sum, fun c => ⟨Nat.le_of_lt_succ c.val_lt, digits_val c⟩, fun _ => val_digits⟩

/-- Settles O1: what RESET answers is `State.resetRegs`, whose registers are those of `Regs.atReset`. -/
theorem resetSetsEveryRegister : Obligations.ResetSetsEveryRegister := by
  refine ⟨rfl, fun s t h => ?_⟩
  obtain ⟨-, rfl⟩ := execReset_next h
  exact s.resetRegs_regs

end Sys2Proof.Machine
end

section
/-! PROOFS. What one edge makes of a state, one equation per branch of 30_encoding.md R62. With these a proof about the
step needs neither the selection table nor the meanings. -/

namespace Sys2Proof.Machine

variable {s : State}

theorem step_of_exec {i : Instr} {u : State} (hi : s.selected = some i) (hu : exec i s = .next u) :
    step s = .next u.endEdge := by
  simp only [step, hi, hu]

theorem State.phase_of_seq {q : Sequencer s.params.startupDelayCycles} (hq : s.seq = q) : s.phase = q.phase :=
  congrArg Sequencer.phase hq

theorem State.selected_of_seq {q : Sequencer s.params.startupDelayCycles} (hq : s.seq = q) (hr : s.inRst = false) :
    s.selected = decode ⟨false, q.phase, s.edge, s.inReady, q.last⟩ := by
  rw [← hr, ← hq]
  rfl

theorem step_of_rst (hr : s.inRst = true) : step s = .next s.resetRegs.endEdge := by
  refine step_of_exec (i := .reset) ?_ ?_
  · rw [State.selected, State.conditionWord, hr, decode_reset]
  · simp [exec, execReset, hr]

theorem step_of_delay {d : Fin (s.params.startupDelayCycles + 1)} (hq : s.seq = .delay d) (hr : s.inRst = false) :
    step s = .next (if d.val = 0 then s.setSeq (.banner 0)
      else s.setSeq (.delay ⟨d.val - 1, Nat.lt_of_le_of_lt (Nat.sub_le _ _) d.isLt⟩)).endEdge := by
  have hsel := State.selected_of_seq hq hr
  by_cases hd : d.val = 0
  · refine step_of_exec (i := .delayDone) ?_ ?_
    · simp [hsel, Sequencer.phase, Sequencer.last, hd]
    · simp [exec, execDelayDone, hq, hr, hd]
  · refine step_of_exec (i := .delayTick) ?_ ?_
    · simp [hsel, Sequencer.phase, Sequencer.last, beq_eq_false_iff_ne.mpr hd]
    · simp [exec, execDelayTick, hq, hr, hd]

theorem step_of_banner {i : Fin 21} (hq : s.seq = .banner i) (hr : s.inRst = false) :
    step s = .next (if s.inReady = false then s
      else if i = 20 then (s.setSeq .poll).memWriteTx lf
      else (s.setSeq (.banner (i + 1))).memWriteTx (memReadBanner i)).endEdge := by
  have hsel := State.selected_of_seq hq hr
  cases hy : s.inReady with
  | false =>
    refine step_of_exec (i := .txStall) ?_ ?_
    · simp [hsel, Sequencer.phase, hy]
    · simp [exec, execTxStall, hq, hr, hy]
  | true =>
    by_cases hi : i = 20
    · refine step_of_exec (i := .bannerLast) ?_ ?_
      · simp [hsel, Sequencer.phase, Sequencer.last, bannerLen, hy, hi]
      · simp [exec, execBannerLast, hq, hr, hy, hi]
    · have hl : (Sequencer.banner i : Sequencer s.params.startupDelayCycles).last = false :=
        beq_eq_false_iff_ne.mpr fun h => hi (Fin.ext h)
      refine step_of_exec (i := .bannerSend) ?_ ?_
      · simp [hsel, Sequencer.phase, hy, hl]
      · simp [exec, execBannerSend, hq, hr, hy, hi]

theorem step_of_poll (hq : s.seq = .poll) (hr : s.inRst = false) :
    step s = .next (if s.inSync = s.prev then s else (s.setSeq (.emit 0)).setPrev s.inSync).endEdge := by
  have hsel := State.selected_of_seq hq hr
  by_cases hs : s.inSync = s.prev
  · refine step_of_exec (i := .pollIdle) ?_ ?_
    · simp [hsel, Sequencer.phase, State.edge, hs]
    · simp [exec, execPollIdle, hq, hr, hs]
  · have he : s.edge = true := bne_iff_ne.mpr hs
    refine step_of_exec (i := .pollEdge) ?_ ?_
    · simp [hsel, Sequencer.phase, he]
    · simp [exec, execPollEdge, hq, hr, hs]

theorem step_of_emit {i : Fin 13} (hq : s.seq = .emit i) (hr : s.inRst = false) :
    step s = .next (if s.inReady = false then s
      else if i = 12 then (((s.setSeq .poll).memWriteTx lf).setPol (toggle s.pol)).setCtr (increment s.ctr)
      else (s.setSeq (.emit (i + 1))).memWriteTx (frameByte i s.pol s.ctr)).endEdge := by
  have hsel := State.selected_of_seq hq hr
  cases hy : s.inReady with
  | false =>
    refine step_of_exec (i := .txStall) ?_ ?_
    · simp [hsel, Sequencer.phase, hy]
    · simp [exec, execTxStall, hq, hr, hy]
  | true =>
    by_cases hi : i = 12
    · refine step_of_exec (i := .emitLast) ?_ ?_
      · simp [hsel, Sequencer.phase, Sequencer.last, frameLen, hy, hi]
      · simp [exec, execEmitLast, hq, hr, hy, hi]
    · have hl : (Sequencer.emit i : Sequencer s.params.startupDelayCycles).last = false :=
        beq_eq_false_iff_ne.mpr fun h => hi (Fin.ext h)
      refine step_of_exec (i := .emitSend) ?_ ?_
      · simp [hsel, Sequencer.phase, hy, hl]
      · simp [exec, execEmitSend, hq, hr, hy, hi]

/-- No state is stuck (60_exceptions.md R115). -/
theorem step_answers (s : State) : ∃ t, step s = .next t := by
  cases hr : s.inRst with
  | true => exact ⟨_, step_of_rst hr⟩
  | false =>
    cases hq : s.seq with
    | delay d => exact ⟨_, step_of_delay hq hr⟩
    | banner i => exact ⟨_, step_of_banner hq hr⟩
    | poll => exact ⟨_, step_of_poll hq hr⟩
    | emit i => exact ⟨_, step_of_emit hq hr⟩

end Sys2Proof.Machine
end

section
/-! PROOFS. The ports (20_memory.md): when a byte is on offer, when it is transferred, and which pins an edge reads. -/

namespace Sys2Proof.Machine

theorem State.txValid_iff (s : State) :
    s.txValid = true ↔ (s.phase = .banner ∨ s.phase = .emit) ∧ s.inRst = false := by
  unfold State.txValid
  cases s.phase <;> simp

theorem State.txValid_of_delay {s : State} (hp : s.phase = .delay) : s.txValid = false := by
  simp [State.txValid, hp]

theorem State.txValid_of_poll {s : State} (hp : s.phase = .poll) : s.txValid = false := by
  simp [State.txValid, hp]

theorem State.txData_of_banner {s : State} {i : Fin 21} (hq : s.seq = .banner i) : s.txData = memReadBanner i := by
  simp [State.txData, hq]

theorem State.txData_of_emit {s : State} {i : Fin 13} (hq : s.seq = .emit i) :
    s.txData = frameByte i s.pol s.ctr := by
  simp [State.txData, hq]

theorem State.driveReady_txData (s : State) (b : Bool) : (s.driveReady b).txData = s.txData := by
  cases hq : s.seq <;> simp [State.txData, State.driveReady, hq]

/-- The banner ends in LF: the byte BANNER_LAST writes is the one the ROM holds (R44). -/
theorem memReadBanner_last : memReadBanner 20 = lf := rfl

/-- A record ends in LF: the byte EMIT_LAST writes is the one the frame holds (30_encoding.md R70). -/
theorem frameByte_last (p : Bool) (c : Counter) : frameByte 12 p c = lf := rfl

/-- Settles O34: in BANNER and EMIT `tx_valid` is the negated `rst`, elsewhere 0, and neither output reads
`tx_ready`. -/
theorem txValidByStateAndReset : Obligations.TxValidByStateAndReset :=
  fun s => ⟨s.txValid_iff, fun b => ⟨rfl, s.driveReady_txData b⟩⟩

/-- Settles O36, by the branches of the step: those that write a byte are the transfers of BANNER and EMIT, and the byte
is the one on offer, also where the operation writes LF by name. -/
theorem bytesAreTransferredByTheHandshake : Obligations.BytesAreTransferredByTheHandshake := by
  intro s t h
  cases hr : s.inRst with
  | true =>
    rw [step_of_rst hr] at h
    cases h
    simp [s.txValid_iff, hr]
  | false =>
    cases hq : s.seq with
    | delay d =>
      have hv : s.txValid = false := State.txValid_of_delay (State.phase_of_seq hq)
      rw [step_of_delay hq hr] at h
      cases h
      by_cases hd : d.val = 0 <;> simp [hv, hd]
    | banner i =>
      have hv : s.txValid = true := s.txValid_iff.mpr ⟨.inl (State.phase_of_seq hq), hr⟩
      rw [step_of_banner hq hr] at h
      cases h
      cases hy : s.inReady with
      | false => simp
      | true => by_cases hi : i = 20 <;> simp [hv, hi, State.txData_of_banner hq, memReadBanner_last]
    | poll =>
      have hv : s.txValid = false := State.txValid_of_poll (State.phase_of_seq hq)
      rw [step_of_poll hq hr] at h
      cases h
      by_cases hs : s.inSync = s.prev <;> simp [hv, hs]
    | emit i =>
      have hv : s.txValid = true := s.txValid_iff.mpr ⟨.inr (State.phase_of_seq hq), hr⟩
      rw [step_of_emit hq hr] at h
      cases h
      cases hy : s.inReady with
      | false => simp
      | true => by_cases hi : i = 12 <;> simp [hv, hi, State.txData_of_emit hq, frameByte_last]

/-- The same state with other pins at the coming edge. -/
def State.withInputs (s : State) (e : EdgeInputs) : State := { s with pending := e :: s.pending.tail }

@[simp] theorem State.withInputs_prev (s : State) (e : EdgeInputs) : (s.withInputs e).prev = s.prev := rfl

theorem State.driveSync_eq_withInputs (s : State) (b : Bool) :
    s.driveSync b = s.withInputs { s.inputs with sync := .level b } := rfl

theorem State.driveReady_eq_withInputs (s : State) (b : Bool) :
    s.driveReady b = s.withInputs { s.inputs with ready := .level b } := rfl

/-- Which pins an edge reads: `rst` always, `sync_in` in POLL only (R37), `tx_ready` only with a byte on offer (R43).
Other pins that agree on those samples make the same step. -/
theorem step_withInputs {s : State} {e : EdgeInputs} (hRst : (s.withInputs e).inRst = s.inRst)
    (hSync : s.phase = .poll → (s.withInputs e).inSync = s.inSync)
    (hReady : s.txValid = true → (s.withInputs e).inReady = s.inReady) : step (s.withInputs e) = step s := by
  cases hr : s.inRst with
  | true => rw [step_of_rst hr, step_of_rst (hRst.trans hr)]; rfl
  | false =>
    have hr' : (s.withInputs e).inRst = false := hRst.trans hr
    cases hq : s.seq with
    | delay d =>
      rw [step_of_delay hq hr, step_of_delay (s := s.withInputs e) hq hr']
      split_ifs <;> rfl
    | banner i =>
      rw [step_of_banner hq hr, step_of_banner (s := s.withInputs e) hq hr',
        hReady (s.txValid_iff.mpr ⟨.inl (State.phase_of_seq hq), hr⟩)]
      split_ifs <;> rfl
    | poll =>
      rw [step_of_poll hq hr, step_of_poll (s := s.withInputs e) hq hr', hSync (State.phase_of_seq hq)]
      by_cases hs : s.inSync = s.prev <;> simp only [State.withInputs_prev, hs, if_true, if_false] <;> rfl
    | emit i =>
      rw [step_of_emit hq hr, step_of_emit (s := s.withInputs e) hq hr',
        hReady (s.txValid_iff.mpr ⟨.inr (State.phase_of_seq hq), hr⟩)]
      split_ifs <;> rfl

/-- Settles O38: every step answers, without an offer the handshake transfers nothing, and the level on `tx_ready` is
not among the samples read. -/
theorem readyIsIgnoredWithoutAnOffer : Obligations.ReadyIsIgnoredWithoutAnOffer := by
  intro s hv
  refine ⟨?_, fun b => ?_⟩
  · obtain ⟨t, ht⟩ := step_answers s
    exact ⟨t, ht, by simp [bytesAreTransferredByTheHandshake s t ht, hv]⟩
  · rw [s.driveReady_eq_withInputs]
    exact step_withInputs rfl (fun _ => rfl) fun h => absurd h (by simp [hv])

theorem prev_of_step_poll {s t : State} (hp : s.phase = .poll) (hr : s.inRst = false) (h : step s = .next t) :
    t.prev = s.inSync := by
  cases hq : s.seq with
  | poll =>
    rw [step_of_poll hq hr] at h
    cases h
    by_cases hs : s.inSync = s.prev <;> simp [hs]
  | _ => simp [State.phase_of_seq hq, Sequencer.phase] at hp

/-- Settles O39: POLL_IDLE leaves a `prev` that equals the sample and POLL_EDGE writes it; outside POLL the level on
`sync_in` is not among the samples read. -/
theorem syncIsSampledInPollOnly : Obligations.SyncIsSampledInPollOnly := by
  refine ⟨fun _ _ => prev_of_step_poll, fun s b hp => ?_⟩
  rw [s.driveSync_eq_withInputs]
  exact step_withInputs rfl (fun h => absurd h hp) fun _ => rfl

end Sys2Proof.Machine
end

section
/-! PROOFS. Which operation applies (30_encoding.md): the pattern, mask and match columns of the selection table agree,
and the meaning of an operation answers exactly where the condition word selects it. -/

namespace Sys2Proof

/-- The pattern column says what the mask and match columns say (R61). -/
theorem decode_eq_some_iff (c : CondWord) (i : Instr) : decode c = some i ↔ c.toBits &&& i.mask = i.matchValue := by
  obtain ⟨r, p, e, t, l⟩ := c
  revert r e t l
  cases i <;> cases p <;> decide

namespace Machine

/-- The signal `last` by its formula (R58). -/
theorem State.last_eq_true_iff (s : State) :
    s.last = true ↔
      s.phase = .delay ∧ s.dcnt = 0 ∨ s.phase = .banner ∧ s.idx = 20 ∨ s.phase = .emit ∧ s.idx = 12 := by
  simp only [State.last, State.phase, State.dcnt, State.idx]
  cases s.seq <;>
    simp [Sequencer.last, Sequencer.phase, Sequencer.dcnt, Sequencer.idx, bannerLen, frameLen]

theorem State.last_eq_decide (s : State) :
    s.last = decide
      (s.phase = .delay ∧ s.dcnt = 0 ∨ s.phase = .banner ∧ s.idx = 20 ∨ s.phase = .emit ∧ s.idx = 12) :=
  Bool.eq_iff_iff.mpr (s.last_eq_true_iff.trans decide_eq_true_iff.symm)

/-- An operation's Condition, met, makes its row the selected one. -/
theorem selected_of_exec_next {i : Instr} {s t : State} (h : exec i s = .next t) : s.selected = some i := by
  unfold State.selected State.conditionWord
  rw [s.last_eq_decide]
  cases i with
  | reset =>
    obtain ⟨hr, -⟩ := execReset_next h
    simp [hr]
  | delayTick =>
    obtain ⟨hr, hp, hd, -⟩ := execDelayTick_next h
    simp [hr, hp, hd]
  | delayDone =>
    obtain ⟨hr, hp, hd, -⟩ := execDelayDone_next h
    simp [hr, hp, hd]
  | txStall =>
    obtain ⟨hr, hy, hp | hp, -⟩ := execTxStall_next h <;> simp [hr, hy, hp]
  | bannerSend =>
    obtain ⟨hr, hy, hp, hx, -⟩ := execBannerSend_next h
    simp [hr, hy, hp, hx]
  | bannerLast =>
    obtain ⟨hr, hy, hp, hx, -⟩ := execBannerLast_next h
    simp [hr, hy, hp, hx]
  | pollIdle =>
    obtain ⟨hr, hp, hs, -⟩ := execPollIdle_next h
    simp [State.edge, hr, hp, hs]
  | pollEdge =>
    obtain ⟨hr, hp, hs, -⟩ := execPollEdge_next h
    have he : s.edge = true := bne_iff_ne.mpr hs
    simp [hr, hp, he]
  | emitSend =>
    obtain ⟨hr, hy, hp, hx, -⟩ := execEmitSend_next h
    simp [hr, hy, hp, hx]
  | emitLast =>
    obtain ⟨hr, hy, hp, hx, -⟩ := execEmitLast_next h
    simp [hr, hy, hp, hx]

/-- An operation answers exactly in the states that select it: the step, which never gets stuck, performs the selected
one. -/
theorem exec_answers_iff_selected (i : Instr) (s : State) : (∃ t, exec i s = .next t) ↔ s.selected = some i := by
  constructor
  · rintro ⟨t, h⟩
    exact selected_of_exec_next h
  · intro hi
    obtain ⟨t, ht⟩ := step_answers s
    obtain ⟨j, u, hj, hu, -⟩ := step_next ht
    obtain rfl : j = i := Option.some.inj (hj.symm.trans hi)
    exact ⟨u, hu⟩

/-- Settles O8: to answer is to be selected, and selection is the mask and match test of the operation's row. -/
theorem operationRunsExactlyWhenItsRowMatches : Obligations.OperationRunsExactlyWhenItsRowMatches := by
  intro i s
  have hrow : (∃ t, exec i s = .next t) ↔ s.conditionWord.toBits &&& i.mask = i.matchValue :=
    (exec_answers_iff_selected i s).trans (decode_eq_some_iff s.conditionWord i)
  cases i <;> exact hrow

end Machine

end Sys2Proof
end

section
/-! PROOFS. The edge monitor (40_edge_monitor.md): in POLL the sample equals the remembered level or differs from it, and
the operation of that case answers. -/

namespace Sys2Proof.Machine

variable {s : State}

theorem State.seq_of_poll (hp : s.phase = .poll) : s.seq = .poll := by
  cases hq : s.seq with
  | poll => rfl
  | _ => simp [State.phase_of_seq hq, Sequencer.phase] at hp

theorem exec_pollIdle_of_same (hr : s.inRst = false) (hp : s.phase = .poll) (hs : s.inSync = s.prev) :
    exec .pollIdle s = .next s := by
  simp [exec, execPollIdle, State.seq_of_poll hp, hr, hs]

theorem exec_pollEdge_of_ne (hr : s.inRst = false) (hp : s.phase = .poll) (hs : s.inSync ≠ s.prev) :
    exec .pollEdge s = .next ((s.setSeq (.emit 0)).setPrev s.inSync) := by
  simp [exec, execPollEdge, State.seq_of_poll hp, hr, hs]

/-- Settles O19: the operation answers the state it was given, so its row matches; POLL offers no byte. -/
theorem pollIdleChangesNothing : Obligations.PollIdleChangesNothing := by
  intro s hr hp hs
  have hex := exec_pollIdle_of_same hr hp hs
  have hrow := (operationRunsExactlyWhenItsRowMatches .pollIdle s).mp ⟨s, hex⟩
  exact ⟨hrow, State.txValid_of_poll hp, s, hex, rfl, rfl, .refl s⟩

/-- Settles O20: what the operation answers stands in EMIT at index 0, where byte 0 of the record of the unchanged
`pol` and `ctr` is on offer while `rst` is low. -/
theorem pollEdgeRecordsTheLevel : Obligations.PollEdgeRecordsTheLevel := by
  intro s hr hp hs
  have hex := exec_pollEdge_of_ne hr hp hs
  have hrow := (operationRunsExactlyWhenItsRowMatches .pollEdge s).mp ⟨_, hex⟩
  obtain ⟨-, -, -, hregs, htx, hsur⟩ := execPollEdge_next hex
  refine ⟨hrow, State.txValid_of_poll hp, _, hex, hregs, htx, hsur, State.txData_of_emit rfl, fun hr' => ?_⟩
  exact (State.txValid_iff _).mpr ⟨.inr rfl, hr'⟩

end Sys2Proof.Machine
end

section
/-! PROOFS. The sequence counter (41_sequence_counter.md): when a carry passes a digit, and when it passes all nine. -/

namespace Sys2Proof.Machine

/-- A carry leaves a digit when one enters it and the digit is 9 (R87). -/
@[simp] theorem digitStep_carry_iff (d : Fin 10) (carry : Bool) :
    (digitStep d carry).2 = true ↔ carry = true ∧ d = 9 := by
  constructor
  · intro h
    obtain ⟨hc, hd, -⟩ := digitStep_carry d carry h
    exact ⟨hc, hd⟩
  · rintro ⟨rfl, rfl⟩
    rfl

/-- The carry that enters the least significant digit passes each digit in turn, so it leaves the most significant one
when all nine are 9 (R88). -/
theorem carryLoop_carry_iff (c : Counter) : (carryLoop c).2 = true ↔ c = ⟨9, 9, 9, 9, 9, 9, 9, 9, 9⟩ := by
  obtain ⟨d0, d1, d2, d3, d4, d5, d6, d7, d8⟩ := c
  simp only [carryLoop, digitStep_carry_iff, Counter.mk.injEq, true_and, and_assoc]

theorem increment_of_carry {c : Counter} (h : (carryLoop c).2 = true) : increment c = Counter.zero := if_pos h

/-- Settles O44: the carry leaves the most significant digit exactly when every digit passes it on, and INCREMENT is then
zero. -/
theorem onlyAllNinesWraps : Obligations.OnlyAllNinesWraps :=
  ⟨increment_of_carry ((carryLoop_carry_iff _).mpr rfl), carryLoop_carry_iff⟩

end Sys2Proof.Machine
end

section
/-! PROOFS. The record emitter (42_record_emitter.md): the Condition of an operation makes the condition word select it,
and the selected operation answers. -/

namespace Sys2Proof.Machine

variable {s : State}

theorem selected_txStall (hr : s.inRst = false) (hp : s.phase = .banner ∨ s.phase = .emit) (hy : s.inReady = false) :
    s.selected = some .txStall := by
  obtain hp | hp := hp <;> simp [State.selected, State.conditionWord, hr, hp, hy]

theorem selected_emitSend (hr : s.inRst = false) (hp : s.phase = .emit) (hy : s.inReady = true) (hx : s.idx ≠ 12) :
    s.selected = some .emitSend := by
  have hl : s.last = false := by simp [s.last_eq_decide, hp, hx]
  simp [State.selected, State.conditionWord, hr, hp, hy, hl]

theorem selected_emitLast (hr : s.inRst = false) (hp : s.phase = .emit) (hy : s.inReady = true) (hx : s.idx = 12) :
    s.selected = some .emitLast := by
  have hl : s.last = true := s.last_eq_true_iff.mpr (.inr (.inr ⟨hp, hx⟩))
  simp [State.selected, State.conditionWord, hr, hp, hy, hl]

/-- In EMIT the byte on offer is the record byte at `idx` (20_memory.md R40). -/
theorem State.txData_eq_frameByte_idx (hp : s.phase = .emit) :
    ∃ i : Fin 13, i.val = s.idx ∧ s.txData = frameByte i s.pol s.ctr := by
  cases hq : s.seq with
  | emit i => exact ⟨i, (congrArg Sequencer.idx hq).symm, State.txData_of_emit hq⟩
  | _ => simp [State.phase_of_seq hq, Sequencer.phase] at hp

/-- Settles O16: a stall answers the state it was given. -/
theorem txStallChangesNothing : Obligations.TxStallChangesNothing := by
  intro s hr hp hy
  obtain ⟨t, hex⟩ := (exec_answers_iff_selected .txStall s).mpr (selected_txStall hr hp hy)
  have hrow := (operationRunsExactlyWhenItsRowMatches .txStall s).mp ⟨t, hex⟩
  obtain ⟨-, -, -, rfl⟩ := execTxStall_next hex
  exact ⟨hrow, t.txValid_iff.mpr ⟨hp, hr⟩, t, hex, rfl, rfl, rfl, .refl t⟩

/-- Settles O21: the byte appended is the one on offer, which is the record byte at `idx`. -/
theorem emitSendTransfersOneByte : Obligations.EmitSendTransfersOneByte := by
  intro s hr hp hy hx
  obtain ⟨t, hex⟩ := (exec_answers_iff_selected .emitSend s).mpr (selected_emitSend hr hp hy hx)
  have hrow := (operationRunsExactlyWhenItsRowMatches .emitSend s).mp ⟨t, hex⟩
  obtain ⟨-, -, -, -, hregs, htx, hsur⟩ := execEmitSend_next hex
  obtain ⟨i, hi, hbyte⟩ := State.txData_eq_frameByte_idx hp
  exact ⟨hrow, s.txValid_iff.mpr ⟨.inr hp, hr⟩, t, hex, hregs, ⟨i, hi, hbyte ▸ htx⟩, hsur⟩

/-- Settles O22: the registers, the byte and the frame are those `execEmitLast_next` lists; TOGGLE is the negation
and `lf` is 0x0A. -/
theorem emitLastTogglesAndIncrements : Obligations.EmitLastTogglesAndIncrements := by
  intro s hr hp hy hx
  obtain ⟨t, hex⟩ := (exec_answers_iff_selected .emitLast s).mpr (selected_emitLast hr hp hy hx)
  have hrow := (operationRunsExactlyWhenItsRowMatches .emitLast s).mp ⟨t, hex⟩
  obtain ⟨-, -, -, -, hregs, htx, hsur⟩ := execEmitLast_next hex
  exact ⟨hrow, s.txValid_iff.mpr ⟨.inr hp, hr⟩, t, hex, hregs, htx, hsur⟩

end Sys2Proof.Machine
end

section
/-! PROOFS. The main loop (43_main_loop.md): the operation that a phase and the samples of the edge select, what it
answers in DELAY and BANNER, and where the edges of POLL and EMIT lead. -/

namespace Sys2Proof.Machine

variable {s t : State}

theorem selected_delayTick (hr : s.inRst = false) (hp : s.phase = .delay) (hd : s.dcnt ≠ 0) :
    s.selected = some .delayTick := by
  have hl : s.last = false := by simp [s.last_eq_decide, hp, hd]
  simp [State.selected, State.conditionWord, hr, hp, hl]

theorem selected_bannerSend (hr : s.inRst = false) (hp : s.phase = .banner) (hy : s.inReady = true)
    (hx : s.idx ≠ 20) : s.selected = some .bannerSend := by
  have hl : s.last = false := by simp [s.last_eq_decide, hp, hx]
  simp [State.selected, State.conditionWord, hr, hp, hy, hl]

theorem selected_bannerLast (hr : s.inRst = false) (hp : s.phase = .banner) (hy : s.inReady = true)
    (hx : s.idx = 20) : s.selected = some .bannerLast := by
  have hl : s.last = true := s.last_eq_true_iff.mpr (.inr (.inl ⟨hp, hx⟩))
  simp [State.selected, State.conditionWord, hr, hp, hy, hl]

/-- The delay count stays within the parameter it starts from (10_state.md R29). -/
theorem State.dcnt_le (s : State) : s.dcnt ≤ s.params.startupDelayCycles := by
  unfold State.dcnt
  cases s.seq with
  | delay d => exact Nat.le_of_lt_succ d.isLt
  | _ => exact Nat.zero_le _

/-- In BANNER the byte on offer is the ROM's byte at `idx` (20_memory.md R40). -/
theorem State.txData_eq_memReadBanner_idx (hp : s.phase = .banner) :
    ∃ i : Fin 21, i.val = s.idx ∧ s.txData = memReadBanner i := by
  cases hq : s.seq with
  | banner i => exact ⟨i, (congrArg Sequencer.idx hq).symm, State.txData_of_banner hq⟩
  | _ => simp [State.phase_of_seq hq, Sequencer.phase] at hp

/-- Settles O14: the selected operation answers. Where it is selected the delay count is not 0, and a parameter of 0
bounds the count by 0. -/
theorem delayTickCountsDown : Obligations.DelayTickCountsDown := by
  refine ⟨fun s hr hp hd => ?_, fun s h0 hi => ?_⟩
  · obtain ⟨t, hex⟩ := (exec_answers_iff_selected .delayTick s).mpr (selected_delayTick hr hp hd)
    have hrow := (operationRunsExactlyWhenItsRowMatches .delayTick s).mp ⟨t, hex⟩
    obtain ⟨-, -, -, hregs, htx, hsur⟩ := execDelayTick_next hex
    exact ⟨hrow, State.txValid_of_delay hp, t, hex, hregs, htx, hsur⟩
  · obtain ⟨t, hex⟩ := (exec_answers_iff_selected .delayTick s).mpr hi
    obtain ⟨-, -, hd, -⟩ := execDelayTick_next hex
    exact hd (Nat.le_zero.mp (h0 ▸ s.dcnt_le))

/-- Settles O17: the byte appended is the one on offer, which is the ROM's byte at `idx`. -/
theorem bannerSendTransfersOneByte : Obligations.BannerSendTransfersOneByte := by
  intro s hr hp hy hx
  obtain ⟨t, hex⟩ := (exec_answers_iff_selected .bannerSend s).mpr (selected_bannerSend hr hp hy hx)
  have hrow := (operationRunsExactlyWhenItsRowMatches .bannerSend s).mp ⟨t, hex⟩
  obtain ⟨-, -, -, -, hregs, htx, hsur⟩ := execBannerSend_next hex
  obtain ⟨i, hi, hbyte⟩ := State.txData_eq_memReadBanner_idx hp
  exact ⟨hrow, s.txValid_iff.mpr ⟨.inl hp, hr⟩, t, hex, hregs, ⟨i, hi, hbyte ▸ htx⟩, hsur⟩

/-- Settles O18: the registers, the byte and the frame are those `execBannerLast_next` lists; `lf` is 0x0A. -/
theorem bannerLastEntersPolling : Obligations.BannerLastEntersPolling := by
  intro s hr hp hy hx
  obtain ⟨t, hex⟩ := (exec_answers_iff_selected .bannerLast s).mpr (selected_bannerLast hr hp hy hx)
  have hrow := (operationRunsExactlyWhenItsRowMatches .bannerLast s).mp ⟨t, hex⟩
  obtain ⟨-, -, -, -, hregs, htx, hsur⟩ := execBannerLast_next hex
  exact ⟨hrow, s.txValid_iff.mpr ⟨.inl hp, hr⟩, t, hex, hregs, htx, hsur⟩

/-- A step whose operation is known is that operation and the end of the edge. -/
theorem exec_of_step_of_selected {i : Instr} (hi : s.selected = some i) (h : step s = .next t) :
    ∃ u, exec i s = .next u ∧ t = u.endEdge := by
  obtain ⟨j, u, hj, hu, ht⟩ := step_next h
  obtain rfl : j = i := Option.some.inj (hj.symm.trans hi)
  exact ⟨u, hu, ht⟩

/-- From POLL the edge monitor stays, or leaves to send a record (R111). -/
theorem step_from_poll (hr : s.inRst = false) (hp : s.phase = .poll) (h : step s = .next t) :
    (t.phase = .poll ∧ s.selected = some .pollIdle) ∨ (t.phase = .emit ∧ s.selected = some .pollEdge) := by
  by_cases hs : s.inSync = s.prev
  · have hi := selected_of_exec_next (exec_pollIdle_of_same hr hp hs)
    obtain ⟨u, hu, rfl⟩ := exec_of_step_of_selected hi h
    obtain ⟨-, -, -, rfl⟩ := execPollIdle_next hu
    exact .inl ⟨hp, hi⟩
  · have hi := selected_of_exec_next (exec_pollEdge_of_ne hr hp hs)
    obtain ⟨u, hu, rfl⟩ := exec_of_step_of_selected hi h
    obtain ⟨-, -, -, hregs, -⟩ := execPollEdge_next hu
    exact .inr ⟨congrArg Regs.phase hregs, hi⟩

/-- From EMIT only the last byte's transfer leaves, and it leads back to POLL (R111). -/
theorem step_from_emit (hr : s.inRst = false) (hp : s.phase = .emit) (h : step s = .next t) :
    (t.phase = .emit ∧ (s.selected = some .txStall ∨ s.selected = some .emitSend)) ∨
      (t.phase = .poll ∧ s.selected = some .emitLast) := by
  cases hy : s.inReady with
  | false =>
    have hi := selected_txStall hr (.inr hp) hy
    obtain ⟨u, hu, rfl⟩ := exec_of_step_of_selected hi h
    obtain ⟨-, -, -, rfl⟩ := execTxStall_next hu
    exact .inl ⟨hp, .inl hi⟩
  | true =>
    by_cases hx : s.idx = 12
    · have hi := selected_emitLast hr hp hy hx
      obtain ⟨u, hu, rfl⟩ := exec_of_step_of_selected hi h
      obtain ⟨-, -, -, -, hregs, -⟩ := execEmitLast_next hu
      exact .inr ⟨congrArg Regs.phase hregs, hi⟩
    · have hi := selected_emitSend hr hp hy hx
      obtain ⟨u, hu, rfl⟩ := exec_of_step_of_selected hi h
      obtain ⟨-, -, -, -, hregs, -⟩ := execEmitSend_next hu
      exact .inl ⟨(congrArg Regs.phase hregs).trans hp, .inr hi⟩

/-- Settles O33: POLL and EMIT lead only to each other or to themselves. -/
theorem pollingNeverExitsOnItsOwn : Obligations.PollingNeverExitsOnItsOwn :=
  fun _ _ h hr => ⟨fun hp => step_from_poll hr hp h, fun hp => step_from_emit hr hp h⟩

end Sys2Proof.Machine
end

section
/-! PROOFS. Exceptions and priorities (60_exceptions.md): each edge performs one operation, fixed by `rst`, then the
phase, then the stall, and none of them can fail. -/

namespace Sys2Proof.Machine

variable {s t : State}

theorem selected_reset (hr : s.inRst = true) : s.selected = some .reset := by
  rw [State.selected, State.conditionWord, hr, decode_reset]

theorem selected_delayDone (hr : s.inRst = false) (hp : s.phase = .delay) (hd : s.dcnt = 0) :
    s.selected = some .delayDone := by
  have hl : s.last = true := s.last_eq_true_iff.mpr (.inl ⟨hp, hd⟩)
  simp [State.selected, State.conditionWord, hr, hp, hl]

theorem State.txValid_of_rst (hr : s.inRst = true) : s.txValid = false := by
  rw [← Bool.not_eq_true, s.txValid_iff]
  rintro ⟨-, hr'⟩
  exact Bool.false_ne_true (hr'.symm.trans hr)

/-- Settles O11: RESET's row reads `rst` only; each clause without reset is one phase, whose condition (the count, the
index or the sample) picks between its two operations. -/
theorem resetThenPhaseThenStall : Obligations.ResetThenPhaseThenStall := by
  refine fun s => ⟨fun hr => ⟨selected_reset hr, State.txValid_of_rst hr⟩, fun hr hp => ?_, selected_txStall,
    fun hr hp hy => ?_, fun hr hp hy => ?_, fun hr hp => ?_⟩
  · split_ifs with hd
    · exact selected_delayDone hr hp hd
    · exact selected_delayTick hr hp hd
  · split_ifs with hx
    · exact selected_bannerLast hr hp hy hx
    · exact selected_bannerSend hr hp hy hx
  · split_ifs with hx
    · exact selected_emitLast hr hp hy hx
    · exact selected_emitSend hr hp hy hx
  · split_ifs with hs
    · exact selected_of_exec_next (exec_pollIdle_of_same hr hp hs)
    · exact selected_of_exec_next (exec_pollEdge_of_ne hr hp hs)

theorem run_succ_of_step (h : step s = .next t) (n : Nat) : run (n + 1) s = run n t := by
  simp only [run, h]

theorem performed_succ_of_step {i : Instr} (hi : s.selected = some i) (h : step s = .next t) (n : Nat) :
    performed (n + 1) s = i :: performed n t := by
  simp only [performed, h, hi, Option.toList_some, List.singleton_append]

/-- Settles O24, by induction on the number of edges: the first step answers in every state and performs one operation,
and the rest of the run goes on from the state it answers. -/
theorem everyRunGoesOn : Obligations.EveryRunGoesOn := by
  intro n
  induction n with
  | zero => exact fun s => ⟨s, rfl, rfl⟩
  | succ n ih =>
    intro s
    obtain ⟨t, ht⟩ := step_answers s
    obtain ⟨i, -, hi, -⟩ := step_next ht
    obtain ⟨u, hu, hlen⟩ := ih t
    refine ⟨u, (run_succ_of_step ht n).trans hu, ?_⟩
    rw [performed_succ_of_step hi ht, List.length_cons, hlen]

end Sys2Proof.Machine
end

section
/-! PROOFS. The RESET operation (70_reset_and_hazards.md): `rst` alone selects it, and it writes the registers and
nothing else. -/

namespace Sys2Proof.Machine

/-- RESET changes neither the parameters nor the inputs to come, which are no registers (R129). -/
theorem State.resetRegs_sameSurroundings (s : State) : SameSurroundings s s.resetRegs :=
  ⟨s.resetRegs_params, s.resetRegs_pending, s.resetRegs_cycle⟩

/-- Settles O13: `rst` selects RESET in every state, so it answers, and what it answers is `State.resetRegs`. -/
theorem resetOverridesEverything : Obligations.ResetOverridesEverything := by
  intro s hr
  obtain ⟨t, hex⟩ := (exec_answers_iff_selected .reset s).mpr (selected_reset hr)
  have hrow := (operationRunsExactlyWhenItsRowMatches .reset s).mp ⟨t, hex⟩
  obtain ⟨-, rfl⟩ := execReset_next hex
  exact ⟨hrow, State.txValid_of_rst hr, _, hex, s.resetRegs_regs, s.resetRegs_tx, s.resetRegs_sameSurroundings⟩

end Sys2Proof.Machine
end

section
/-! PROOFS. The encoding of the selection table (30_encoding.md section 1): a word selects the operation whose row it
matches, and a coded operation and its byte determine each other. -/

namespace Sys2Proof

/-- The bits of a condition word are its fields, the other direction of `CondWord.ofBits_toBits`. -/
@[simp] theorem CondWord.toBits_ofBits (w : BitVec 6) : (CondWord.ofBits w).toBits = w := by
  revert w
  decide

/-- A word selects the operation whose row matches it, `(w AND mask) == match` (R61). -/
theorem decodeWord_eq_some_iff (w : BitVec 6) (i : Instr) :
    decodeWord w = some i ↔ w &&& i.mask = i.matchValue := by
  rw [decodeWord, decode_eq_some_iff, CondWord.toBits_ofBits]

theorem decodeWord_isSome (w : BitVec 6) : ∃ i, decodeWord w = some i := decode_isSome _

/-- The match column sets no bit outside the mask. -/
theorem Instr.matchValue_and_mask (i : Instr) : i.matchValue &&& i.mask = i.matchValue := by
  cases i <;> rfl

theorem Instr.matchValue_and_not_mask (i : Instr) : i.matchValue &&& ~~~ i.mask = 0#6 := by
  cases i <;> rfl

theorem CodedOp.wellFormed_iff (c : CodedOp) : c.wellFormed = true ↔ c.letters &&& c.op.mask = 0#6 := by
  rw [CodedOp.wellFormed, ← Instr.mask_eq_not_letterBits, beq_iff_eq]

/-- A mask cuts a word into the bits it covers and the bits it does not. -/
theorem and_or_and_not (w m : BitVec 6) : w &&& m ||| w &&& ~~~ m = w := by
  rw [← BitVec.and_or_distrib_left, BitVec.or_not_self, BitVec.and_allOnes]

/-- The letters of a well-formed coded operation lie outside the mask, so its word matches its row. -/
theorem decodeWord_encodeWord {c : CodedOp} (h : c.wellFormed = true) : decodeWord (encodeWord c) = some c.op := by
  rw [decodeWord_eq_some_iff, encodeWord, BitVec.and_or_distrib_right, Instr.matchValue_and_mask,
    c.wellFormed_iff.mp h, BitVec.or_zero]

/-- Outside the mask the word of a well-formed coded operation holds its letters. -/
theorem encodeWord_and_not_mask {c : CodedOp} (h : c.wellFormed = true) :
    encodeWord c &&& ~~~ c.op.mask = c.letters := by
  have hl := and_or_and_not c.letters c.op.mask
  rw [c.wellFormed_iff.mp h, BitVec.zero_or] at hl
  rw [encodeWord, BitVec.and_or_distrib_right, Instr.matchValue_and_not_mask, BitVec.zero_or, hl]

/-- The letters the decoder reads off a word of a row are well formed, and with the row's match value they make the word
again. -/
theorem wellFormed_encodeWord_of_decodeWord {w : BitVec 6} {i : Instr} (h : decodeWord w = some i) :
    (CodedOp.mk i (w &&& ~~~ i.mask)).wellFormed = true ∧ encodeWord ⟨i, w &&& ~~~ i.mask⟩ = w := by
  rw [decodeWord_eq_some_iff] at h
  constructor
  · simp [CodedOp.wellFormed_iff, BitVec.and_assoc]
  · rw [encodeWord, ← h, and_or_and_not]

/-- A byte is a condition word when it is below 64 (log entry 7). -/
theorem byte_isWord_iff (b : Byte) : b &&& 0xC0#8 = 0#8 ↔ b.toNat < 64 := by
  revert b
  decide

theorem byte_eq_setWidth_of_isWord {b : Byte} (h : b &&& 0xC0#8 = 0#8) : (b.setWidth 6).setWidth 8 = b := by
  have hb := (byte_isWord_iff b).mp h
  refine BitVec.eq_of_toNat_eq ?_
  simp only [BitVec.toNat_setWidth]
  omega

theorem decodeBytes_of_decodeWord {w : BitVec 6} {i : Instr} (h : decodeWord w = some i) (rest : List Byte) :
    decodeBytes (w.setWidth 8 :: rest) = .ok (⟨i, w &&& ~~~ i.mask⟩, rest) := by
  have hw : w.setWidth 8 &&& 0xC0#8 = 0#8 := by
    rw [byte_isWord_iff, BitVec.toNat_setWidth]
    omega
  simp [decodeBytes, hw, h]

theorem decodeBytes_of_not_isWord {b : Byte} (h : b &&& 0xC0#8 ≠ 0#8) (rest : List Byte) :
    decodeBytes (b :: rest) = .error .notSixBits := if_neg h

/-- What the decoder reads is a byte that holds a word, its row and its letters. -/
theorem decodeBytes_ok {bs rest : List Byte} {c : CodedOp} (h : decodeBytes bs = .ok (c, rest)) :
    ∃ w : BitVec 6, bs = w.setWidth 8 :: rest ∧ decodeWord w = some c.op ∧ c = ⟨c.op, w &&& ~~~ c.op.mask⟩ := by
  cases bs with
  | nil => cases h
  | cons b tl =>
    by_cases hb : b &&& 0xC0#8 = 0#8
    · obtain ⟨i, hi⟩ := decodeWord_isSome (b.setWidth 6)
      have hok := decodeBytes_of_decodeWord hi tl
      rw [byte_eq_setWidth_of_isWord hb, h] at hok
      cases hok
      exact ⟨b.setWidth 6, by rw [byte_eq_setWidth_of_isWord hb], hi, rfl⟩
    · rw [decodeBytes_of_not_isWord hb] at h
      cases h

/-- Settles O5: the word of a well-formed coded operation matches its row, and outside the mask it holds the letters. -/
theorem decodeOfEncodeIsIdentity : Obligations.DecodeOfEncodeIsIdentity := by
  intro c rest hc
  calc decodeBytes (encode c ++ rest)
      = .ok (⟨c.op, encodeWord c &&& ~~~ c.op.mask⟩, rest) := decodeBytes_of_decodeWord (decodeWord_encodeWord hc) rest
    _ = .ok (c, rest) := by rw [encodeWord_and_not_mask hc]

/-- Settles O6: what was read is a word's byte, and the word is its row's match value with the letters filled in. -/
theorem encodeOfDecodeIsIdentity : Obligations.EncodeOfDecodeIsIdentity := by
  intro bs rest c h
  obtain ⟨w, rfl, hi, hc⟩ := decodeBytes_ok h
  obtain ⟨hwf, henc⟩ := wellFormed_encodeWord_of_decodeWord hi
  rw [← hc] at hwf henc
  exact ⟨hwf, by rw [encode, henc]; rfl⟩

/-- Read as a number, a table word is a six-bit word below 64 and nothing else. -/
theorem decodeTableWord_eq (w : Nat) :
    decodeTableWord 8 w = if w < 64 then decodeWord (BitVec.ofNat 6 w) else none := by
  by_cases hw : w < 64
  · have hb : BitVec.ofNat 8 w = (BitVec.ofNat 6 w).setWidth 8 := by
      refine BitVec.eq_of_toNat_eq ?_
      simp only [BitVec.toNat_setWidth, BitVec.toNat_ofNat]
      omega
    have h256 : w < 256 := by omega
    obtain ⟨i, hi⟩ := decodeWord_isSome (BitVec.ofNat 6 w)
    rw [if_pos hw, hi, decodeTableWord, if_pos ⟨h256, h256⟩, hb, decodeBytes_of_decodeWord hi]
  · rw [if_neg hw, decodeTableWord]
    split_ifs with h256
    · have hb : BitVec.ofNat 8 w &&& 0xC0#8 ≠ 0#8 := by
        rw [Ne, byte_isWord_iff, BitVec.toNat_ofNat]
        omega
      rw [decodeBytes_of_not_isWord hb]
    · rfl

theorem decodeTableWord_eq_some_iff (w : Nat) (i : Instr) :
    decodeTableWord 8 w = some i ↔ w < 64 ∧ decodeWord (BitVec.ofNat 6 w) = some i := by
  rw [decodeTableWord_eq]
  split_ifs with hw <;> simp [hw]

/-- Settles O4: below 64 the mask and match test of the word is the test of the number. -/
theorem decoderReadsTheMatchingRow : Obligations.DecoderReadsTheMatchingRow := by
  intro w i
  rw [decodeTableWord_eq_some_iff]
  refine and_congr_right fun hw => ?_
  rw [decodeWord_eq_some_iff, ← BitVec.toNat_inj, BitVec.toNat_and, BitVec.toNat_ofNat, Nat.mod_eq_of_lt hw]

/-- Settles O3: twelve words and two numbers, each read by the decoder. -/
theorem tableWordsDecodeToTheirRows : Obligations.TableWordsDecodeToTheirRows := by
  unfold Obligations.TableWordsDecodeToTheirRows
  decide

namespace Machine

/-- Settles O7: some row matches each word, and the decoder answers each row that matches, so no two do; in POLL the
signal `last` is 0 (R58). -/
theorem exactlyOneRowMatchesEachWord : Obligations.ExactlyOneRowMatchesEachWord := by
  refine ⟨fun w => ?_, ?_⟩
  · obtain ⟨i, hi⟩ := decodeWord_isSome w
    refine ⟨i, hi, (decodeWord_eq_some_iff w i).mp hi, fun j hj => ?_⟩
    exact Option.some.inj (((decodeWord_eq_some_iff w j).mpr hj).symm.trans hi)
  · rintro s ⟨hp, hl⟩
    have hp' : s.phase = .poll := hp
    have hl' : s.last = true := hl
    simp [s.last_eq_true_iff, hp'] at hl'

/-- The pins and the sequencing registers that the host places for a condition word select the word's operation. In POLL
the word's bit 0 is not placed, and both rows there leave it free. -/
theorem State.withCondWord_selected (s : State) (c : CondWord) : (s.withCondWord c).selected = decode c := by
  obtain ⟨r, p, e, t, l⟩ := c
  have he : ∀ b : Bool, ((e ^^ b) ^^ b) = e := fun b => by simp
  cases r with
  | true => exact decode_reset _ _ _ _
  | false =>
    cases p with
    | poll => cases e <;> rfl
    | _ => cases l <;> exact congrArg (fun e => decode ⟨false, _, e, t, _⟩) (he s.prev)

/-- Settles O12: a table word that decodes is below 64, so the host places its condition word. -/
theorem placedWordRunsNext : Obligations.PlacedWordRunsNext := by
  intro s w i h
  obtain ⟨hw, hi⟩ := (decodeTableWord_eq_some_iff w i).mp h
  have hplace : s.withFetchWord 8 w = s.withCondWord (CondWord.ofBits (BitVec.ofNat 6 w)) :=
    if_pos ⟨Nat.lt_trans hw (by decide), hw⟩
  refine ⟨?_, step_answers _⟩
  rw [hplace, State.withCondWord_selected]
  exact hi

/-- Settles O10: the two signals by their formulas. -/
theorem lastAndEdgeSignals : Obligations.LastAndEdgeSignals :=
  fun s => ⟨s.last_eq_true_iff, bne_iff_ne⟩

end Machine

end Sys2Proof
end

section
/-! PROOFS. The sequence counter in numbers (41_sequence_counter.md): INCREMENT is the successor modulo ten to the nine,
so the parity of digit 0 flips with it; and the 36-bit field holds the digits to the base 16. -/

namespace Sys2Proof.Machine

/-- The loop adds one: what the nine digits do not hold is the carry that leaves the most significant one (R87). -/
theorem carryLoop_sum (c : Counter) :
    (carryLoop c).1.val + 1000000000 * (carryLoop c).2.toNat = c.val + 1 := by
  unfold carryLoop Counter.val
  extract_lets r0 r1 r2 r3 r4 r5 r6 r7 r8
  have h0 : r0.1.val + 10 * r0.2.toNat = c.d0.val + true.toNat := digitStep_sum c.d0 _
  have h1 : r1.1.val + 10 * r1.2.toNat = c.d1.val + r0.2.toNat := digitStep_sum c.d1 _
  have h2 : r2.1.val + 10 * r2.2.toNat = c.d2.val + r1.2.toNat := digitStep_sum c.d2 _
  have h3 : r3.1.val + 10 * r3.2.toNat = c.d3.val + r2.2.toNat := digitStep_sum c.d3 _
  have h4 : r4.1.val + 10 * r4.2.toNat = c.d4.val + r3.2.toNat := digitStep_sum c.d4 _
  have h5 : r5.1.val + 10 * r5.2.toNat = c.d5.val + r4.2.toNat := digitStep_sum c.d5 _
  have h6 : r6.1.val + 10 * r6.2.toNat = c.d6.val + r5.2.toNat := digitStep_sum c.d6 _
  have h7 : r7.1.val + 10 * r7.2.toNat = c.d7.val + r6.2.toNat := digitStep_sum c.d7 _
  have h8 : r8.1.val + 10 * r8.2.toNat = c.d8.val + r7.2.toNat := digitStep_sum c.d8 _
  rw [Bool.toNat_true] at h0
  dsimp only
  omega

@[simp] theorem Counter.zero_val : Counter.zero.val = 0 := rfl

theorem increment_val (c : Counter) : (increment c).val = (c.val + 1) % 1000000000 := by
  have hsum := carryLoop_sum c
  cases hc : (carryLoop c).2 with
  | true =>
    rw [hc, Bool.toNat_true] at hsum
    have hlt := c.val_lt
    rw [increment_of_carry hc, Counter.zero_val]
    omega
  | false =>
    rw [hc, Bool.toNat_false] at hsum
    have hi : increment c = (carryLoop c).1 := if_neg (hc ▸ Bool.false_ne_true)
    rw [hi, ← hsum, Nat.mul_zero, Nat.add_zero, Nat.mod_eq_of_lt (Counter.val_lt _)]

/-- Settles O43: the value by the sum the carry loop keeps, and the digits are those of the value. -/
theorem incrementIsSuccessorModuloTenToTheNine : Obligations.IncrementIsSuccessorModuloTenToTheNine :=
  fun c => ⟨increment_val c, by rw [← increment_val, digits_val]⟩

theorem increment_ne (c : Counter) : increment c ≠ c := by
  intro h
  have hv := increment_val c
  have hlt := c.val_lt
  rw [h] at hv
  omega

/-- The weights of the other digits are even. -/
theorem Counter.digit_zero_parity (c : Counter) : (c.digit 0).val % 2 = c.val % 2 := by
  simp only [Counter.digit, Counter.val]
  omega

theorem increment_digit_zero_parity (c : Counter) :
    ((increment c).digit 0).val % 2 = ((c.digit 0).val + 1) % 2 := by
  have hc := c.digit_zero_parity
  have hi := (increment c).digit_zero_parity
  rw [increment_val] at hi
  omega

/-- The digits of a counter as the hexadecimal digits of its field (10_state.md R18). -/
def Counter.hexDigit (c : Counter) (i : Fin 9) : Fin 16 := (c.digit i).castLE (by decide)

theorem Counter.packed_toNat (c : Counter) : c.packed.toNat = (finFunctionFinEquiv c.hexDigit).val := by
  have hsum : (finFunctionFinEquiv c.hexDigit).val = c.d0.val + c.d1.val * 2 ^ 4 + c.d2.val * 2 ^ 8 +
      c.d3.val * 2 ^ 12 + c.d4.val * 2 ^ 16 + c.d5.val * 2 ^ 20 + c.d6.val * 2 ^ 24 + c.d7.val * 2 ^ 28 +
      c.d8.val * 2 ^ 32 := by
    rw [finFunctionFinEquiv_apply]
    simp [Counter.hexDigit, Counter.digit, Fin.sum_univ_succ, Nat.add_assoc]
  rw [Counter.packed, BitVec.toNat_ofNat, ← hsum]
  exact Nat.mod_eq_of_lt (finFunctionFinEquiv c.hexDigit).isLt

/-- Settles O46: four bits from `4i` are digit `i` to the base 16, as Mathlib's `finFunctionFinEquiv` reads
it off. -/
theorem digitsStandInTheirFourBits : Obligations.DigitsStandInTheirFourBits := by
  intro c i
  calc (c.packed.extractLsb' (4 * i.val) 4).toNat
      = (finFunctionFinEquiv c.hexDigit).val / 16 ^ i.val % 16 := by
        rw [BitVec.extractLsb'_toNat, c.packed_toNat, Nat.shiftRight_eq_div_pow, pow_mul]
        rfl
    _ = (finFunctionFinEquiv.symm (finFunctionFinEquiv c.hexDigit) i).val := rfl
    _ = (c.digit i).val := by rw [Equiv.symm_apply_apply]; rfl

end Sys2Proof.Machine
end

section
/-! PROOFS. The bytes on the wire (30_encoding.md sections 2 to 4): the record by index, `tx_data` on the flat
registers, and the characters that occur. -/

namespace Sys2Proof.Machine

/-- The case list of 42_record_emitter.md R96 is the table of 30_encoding.md R70. -/
theorem frameByteByCases_eq (j : Fin 13) (p : Bool) (c : Counter) : frameByteByCases j.val p c = frameByte j p c := by
  cases p <;> fin_cases j <;> rfl

/-- Settles O47: the case list says what each index holds, and the record of the example is computed. -/
theorem frameBytesAreTheRecord : Obligations.FrameBytesAreTheRecord := by
  refine ⟨fun j p c => ?_, rfl⟩
  rw [← frameByteByCases_eq]
  refine ⟨fun h => ?_, fun h => ?_, fun i h => ?_, fun h => ?_, fun h => ?_⟩
  · cases p <;> simp [frameByteByCases, h]
  · simp [frameByteByCases, h]
  · have hj0 : j.val ≠ 0 := by omega
    have hj1 : j.val ≠ 1 := by omega
    have hj : j.val ≤ 10 := by omega
    have hi : Fin.ofNat 9 (10 - j.val) = i := Fin.ext (by rw [Fin.val_ofNat]; omega)
    simp only [frameByteByCases, hj0, hj1, hj, hi, if_true, if_false]
  · simp [frameByteByCases, h]
  · simp [frameByteByCases, h]

/-- Settles O48: the table read index by index. -/
theorem bannerRomHoldsTheStartupLine : Obligations.BannerRomHoldsTheStartupLine := by
  unfold Obligations.BannerRomHoldsTheStartupLine
  decide

/-- `tx_data` is a function of the flat registers (20_memory.md R40). -/
theorem State.regs_txData (s : State) : s.regs.txData = s.txData := by
  cases hq : s.seq with
  | banner i =>
    have hi : s.idx = i.val := congrArg Sequencer.idx hq
    rw [State.txData_of_banner hq]
    simp only [Regs.txData, s.regs_phase, State.phase_of_seq hq, Sequencer.phase, s.regs_idx, hi]
    exact List.getD_eq_getElem _ _ i.isLt
  | emit i =>
    have hi : s.idx = i.val := congrArg Sequencer.idx hq
    rw [State.txData_of_emit hq, ← frameByteByCases_eq]
    simp only [Regs.txData, s.regs_phase, State.phase_of_seq hq, Sequencer.phase, s.regs_idx, hi, s.regs_pol,
      s.regs_ctr]
  | _ => simp [Regs.txData, State.phase_of_seq hq, Sequencer.phase, State.txData, hq]

theorem State.txData_congr {s t : State} (h : t.regs = s.regs) : t.txData = s.txData := by
  rw [← t.regs_txData, h, s.regs_txData]

/-- Settles O35: the index of a phase names one byte, and outside BANNER and EMIT none is on offer. -/
theorem txDataByState : Obligations.TxDataByState := by
  refine fun s => ⟨fun i hp hi => ?_, fun j hp hj => ?_, fun hp => ?_⟩
  · obtain ⟨k, hk, hbyte⟩ := State.txData_eq_memReadBanner_idx hp
    rw [hbyte, Fin.ext (hk.trans hi)]
  · obtain ⟨k, hk, hbyte⟩ := State.txData_eq_frameByte_idx hp
    rw [hbyte, Fin.ext (hk.trans hj)]
  · rw [← s.regs_txData]
    obtain hp | hp := hp <;> simp [Regs.txData, hp]

/-- A character of 30_encoding.md R64: of the banner, the comma or a decimal digit, so no NUL and nothing above 0x7F. -/
def ListedChar (b : Byte) : Prop :=
  b ≠ 0x00#8 ∧ b.toNat ≤ 0x7F ∧ (b ∈ bannerRom ∨ b = 0x2C#8 ∨ (0x30 ≤ b.toNat ∧ b.toNat ≤ 0x39))

theorem listedChar_of_mem_bannerRom {b : Byte} (h : b ∈ bannerRom) : ListedChar b := by
  have hall : ∀ b ∈ bannerRom, b ≠ 0x00#8 ∧ b.toNat ≤ 0x7F := by decide
  obtain ⟨h0, h7F⟩ := hall b h
  exact ⟨h0, h7F, .inl h⟩

theorem listedChar_asciiDigit (d : Fin 10) : ListedChar (asciiDigit d) := by
  have hall : ∀ d : Fin 10, asciiDigit d ≠ 0x00#8 ∧ (asciiDigit d).toNat ≤ 0x7F ∧
    0x30 ≤ (asciiDigit d).toNat ∧ (asciiDigit d).toNat ≤ 0x39 := by decide
  obtain ⟨h0, h7F, hdigit⟩ := hall d
  exact ⟨h0, h7F, .inr (.inr hdigit)⟩

/-- The polarity character is one of the digits 0 and 1 (R66). -/
theorem polByte_eq_asciiDigit (p : Bool) : polByte p = asciiDigit (if p then 1 else 0) := by
  cases p <;> rfl

theorem listedChar_of_mem_record {p : Bool} {c : Counter} {b : Byte} (h : b ∈ record p c) : ListedChar b := by
  have hline : ∀ b ∈ [cr, lf], ListedChar b := fun b hb =>
    listedChar_of_mem_bannerRom (List.mem_of_mem_drop (i := 19) hb)
  have hcomma : ListedChar comma := ⟨by decide, by decide, .inr (.inl rfl)⟩
  simp only [List.forall_mem_cons] at hline
  obtain ⟨hcr, hlf, -⟩ := hline
  have hall : ∀ b ∈ record p c, ListedChar b := by
    simp [record, polByte_eq_asciiDigit, listedChar_asciiDigit, hcomma, hcr, hlf]
  exact hall b h

/-- With a byte on offer it is a listed character. -/
theorem State.txData_listedChar {s : State} (hp : s.phase = .banner ∨ s.phase = .emit) : ListedChar s.txData := by
  obtain hp | hp := hp
  · obtain ⟨i, -, hbyte⟩ := State.txData_eq_memReadBanner_idx hp
    exact hbyte ▸ listedChar_of_mem_bannerRom (List.getElem_mem _)
  · obtain ⟨i, -, hbyte⟩ := State.txData_eq_frameByte_idx hp
    exact hbyte ▸ listedChar_of_mem_record (List.getElem_mem _)

/-- Settles O49: what a step appends is nothing or, by the handshake, the byte on offer. -/
theorem onlyListedCharactersAreSent : Obligations.OnlyListedCharactersAreSent := by
  intro s t bs h htx
  have hbs : bs = if s.txValid = true ∧ s.inReady = true then [s.txData] else [] :=
    List.append_cancel_left (htx.symm.trans (bytesAreTransferredByTheHandshake s t h))
  subst hbs
  split_ifs with hv
  · obtain ⟨hp, -⟩ := s.txValid_iff.mp hv.1
    exact ⟨Nat.le_refl 1, fun b hb => List.mem_singleton.mp hb ▸ State.txData_listedChar hp⟩
  · exact ⟨Nat.zero_le 1, fun b hb => absurd hb List.not_mem_nil⟩

end Sys2Proof.Machine
end

section
/-! PROOFS. What each operation does, in one table (10_state.md section 4): its Condition, the registers after it and
the bytes it transfers. The claims about single operations and single edges below are read off this table. -/

namespace Sys2Proof.Machine

/-- The Condition of each operation, on the samples of the edge and the registers (30_encoding.md R61). -/
def State.Condition (s : State) : Instr → Prop
  | .reset => s.inRst = true
  | .delayTick => s.inRst = false ∧ s.phase = .delay ∧ s.dcnt ≠ 0
  | .delayDone => s.inRst = false ∧ s.phase = .delay ∧ s.dcnt = 0
  | .txStall => s.inRst = false ∧ (s.phase = .banner ∨ s.phase = .emit) ∧ s.inReady = false
  | .bannerSend => s.inRst = false ∧ s.phase = .banner ∧ s.inReady = true ∧ s.idx ≠ 20
  | .bannerLast => s.inRst = false ∧ s.phase = .banner ∧ s.inReady = true ∧ s.idx = 20
  | .pollIdle => s.inRst = false ∧ s.phase = .poll ∧ s.inSync = s.prev
  | .pollEdge => s.inRst = false ∧ s.phase = .poll ∧ s.inSync ≠ s.prev
  | .emitSend => s.inRst = false ∧ s.phase = .emit ∧ s.inReady = true ∧ s.idx ≠ 12
  | .emitLast => s.inRst = false ∧ s.phase = .emit ∧ s.inReady = true ∧ s.idx = 12

/-- The registers after each operation. -/
def State.regsAfter (s : State) : Instr → Regs
  | .reset => Regs.atReset s.params
  | .delayTick => { s.regs with dcnt := s.dcnt - 1 }
  | .delayDone => { s.regs with phase := .banner, idx := 0 }
  | .txStall => s.regs
  | .bannerSend => { s.regs with idx := s.idx + 1 }
  | .bannerLast => { s.regs with phase := .poll, idx := 0 }
  | .pollIdle => s.regs
  | .pollEdge => { s.regs with prev := s.inSync, phase := .emit, idx := 0 }
  | .emitSend => { s.regs with idx := s.idx + 1 }
  | .emitLast => { s.regs with pol := !s.pol, ctr := increment s.ctr, phase := .poll, idx := 0 }

/-- The bytes each operation appends to the stream: the byte on offer, or none. -/
def State.sentBy (s : State) : Instr → List Byte
  | .bannerSend | .bannerLast | .emitSend | .emitLast => [s.txData]
  | .reset | .delayTick | .delayDone | .txStall | .pollIdle | .pollEdge => []

variable {s t : State} {i : Instr}

theorem State.txData_of_banner_last (hp : s.phase = .banner) (hx : s.idx = 20) : s.txData = lf := by
  obtain ⟨i, hi, hbyte⟩ := State.txData_eq_memReadBanner_idx hp
  obtain rfl : i = 20 := Fin.ext (hi.trans hx)
  rw [hbyte, memReadBanner_last]

theorem State.txData_of_emit_last (hp : s.phase = .emit) (hx : s.idx = 12) : s.txData = lf := by
  obtain ⟨i, hi, hbyte⟩ := State.txData_eq_frameByte_idx hp
  obtain rfl : i = 12 := Fin.ext (hi.trans hx)
  rw [hbyte, frameByte_last]

/-- An operation that answers met its Condition and did what the table says of it. -/
theorem exec_next (h : exec i s = .next t) :
    s.Condition i ∧ t.regs = s.regsAfter i ∧ t.tx = s.tx ++ s.sentBy i ∧ SameSurroundings s t := by
  cases i with
  | reset =>
    obtain ⟨hr, rfl⟩ := execReset_next h
    exact ⟨hr, s.resetRegs_regs, (List.append_nil _).symm, s.resetRegs_sameSurroundings⟩
  | delayTick =>
    obtain ⟨hr, hp, hd, hregs, htx, hsur⟩ := execDelayTick_next h
    exact ⟨⟨hr, hp, hd⟩, hregs, htx.trans (List.append_nil _).symm, hsur⟩
  | delayDone =>
    obtain ⟨hr, hp, hd, hregs, htx, hsur⟩ := execDelayDone_next h
    exact ⟨⟨hr, hp, hd⟩, hregs, htx.trans (List.append_nil _).symm, hsur⟩
  | txStall =>
    obtain ⟨hr, hy, hp, rfl⟩ := execTxStall_next h
    exact ⟨⟨hr, hp, hy⟩, rfl, (List.append_nil _).symm, .refl t⟩
  | bannerSend =>
    obtain ⟨hr, hy, hp, hx, hregs, htx, hsur⟩ := execBannerSend_next h
    exact ⟨⟨hr, hp, hy, hx⟩, hregs, htx, hsur⟩
  | bannerLast =>
    obtain ⟨hr, hy, hp, hx, hregs, htx, hsur⟩ := execBannerLast_next h
    exact ⟨⟨hr, hp, hy, hx⟩, hregs, htx.trans (by rw [State.sentBy, State.txData_of_banner_last hp hx]), hsur⟩
  | pollIdle =>
    obtain ⟨hr, hp, hs, rfl⟩ := execPollIdle_next h
    exact ⟨⟨hr, hp, hs⟩, rfl, (List.append_nil _).symm, .refl t⟩
  | pollEdge =>
    obtain ⟨hr, hp, hs, hregs, htx, hsur⟩ := execPollEdge_next h
    exact ⟨⟨hr, hp, hs⟩, hregs, htx.trans (List.append_nil _).symm, hsur⟩
  | emitSend =>
    obtain ⟨hr, hy, hp, hx, hregs, htx, hsur⟩ := execEmitSend_next h
    exact ⟨⟨hr, hp, hy, hx⟩, hregs, htx, hsur⟩
  | emitLast =>
    obtain ⟨hr, hy, hp, hx, hregs, htx, hsur⟩ := execEmitLast_next h
    exact ⟨⟨hr, hp, hy, hx⟩, hregs, htx.trans (by rw [State.sentBy, State.txData_of_emit_last hp hx]), hsur⟩

theorem selected_of_condition (h : s.Condition i) : s.selected = some i := by
  cases i with
  | reset => exact selected_reset h
  | delayTick =>
    obtain ⟨hr, hp, hd⟩ := h
    exact selected_delayTick hr hp hd
  | delayDone =>
    obtain ⟨hr, hp, hd⟩ := h
    exact selected_delayDone hr hp hd
  | txStall =>
    obtain ⟨hr, hp, hy⟩ := h
    exact selected_txStall hr hp hy
  | bannerSend =>
    obtain ⟨hr, hp, hy, hx⟩ := h
    exact selected_bannerSend hr hp hy hx
  | bannerLast =>
    obtain ⟨hr, hp, hy, hx⟩ := h
    exact selected_bannerLast hr hp hy hx
  | pollIdle =>
    obtain ⟨hr, hp, hs⟩ := h
    exact selected_of_exec_next (exec_pollIdle_of_same hr hp hs)
  | pollEdge =>
    obtain ⟨hr, hp, hs⟩ := h
    exact selected_of_exec_next (exec_pollEdge_of_ne hr hp hs)
  | emitSend =>
    obtain ⟨hr, hp, hy, hx⟩ := h
    exact selected_emitSend hr hp hy hx
  | emitLast =>
    obtain ⟨hr, hp, hy, hx⟩ := h
    exact selected_emitLast hr hp hy hx

/-- The condition word selects the operation whose Condition holds. -/
theorem selected_eq_some_iff : s.selected = some i ↔ s.Condition i := by
  refine ⟨fun h => ?_, selected_of_condition⟩
  obtain ⟨t, ht⟩ := (exec_answers_iff_selected i s).mpr h
  obtain ⟨hc, -⟩ := exec_next ht
  exact hc

/-- An operation answers a next state or is refused by name; there is no third outcome. -/
theorem exec_next_or_refused (i : Instr) (s : State) :
    (∃ t, exec i s = .next t) ∨ exec i s = .refused .notSelected := by
  cases i <;> simp only [exec, execReset, execDelayTick, execDelayDone, execTxStall, execBannerSend, execBannerLast,
    execPollIdle, execPollEdge, execEmitSend, execEmitLast]
  case reset => split <;> simp
  all_goals split <;> (try split) <;> simp

/-- Settles O9: an operation that answers is selected, and one that does not answer is refused. -/
theorem unselectedOperationIsRefused : Obligations.UnselectedOperationIsRefused := by
  intro i s hi
  obtain ⟨t, ht⟩ | h := exec_next_or_refused i s
  · exact absurd (selected_of_exec_next ht) hi
  · exact h

/-- Settles O15: the row matches, and the table says what DELAY_DONE does. -/
theorem delayDoneEntersBanner : Obligations.DelayDoneEntersBanner := by
  intro s hr hp hd
  obtain ⟨t, hex⟩ := (exec_answers_iff_selected .delayDone s).mpr (selected_delayDone hr hp hd)
  have hrow := (operationRunsExactlyWhenItsRowMatches .delayDone s).mp ⟨t, hex⟩
  obtain ⟨-, hregs, htx, hsur⟩ := exec_next hex
  exact ⟨hrow, State.txValid_of_delay hp, t, hex, hregs, htx.trans (List.append_nil _), hsur⟩

/-- The registers by name, where all of them are known. -/
theorem State.fields_of_regs {r : Regs} (h : t.regs = r) :
    t.prev = r.prev ∧ t.pol = r.pol ∧ t.ctr = r.ctr ∧ t.phase = r.phase ∧ t.idx = r.idx ∧ t.dcnt = r.dcnt := by
  subst h
  exact ⟨rfl, rfl, rfl, rfl, rfl, rfl⟩

/-- The index is 0 where no byte is on offer (10_state.md R29). -/
theorem State.idx_eq_zero (hp : s.phase = .delay ∨ s.phase = .poll) : s.idx = 0 := by
  unfold State.idx
  cases hq : s.seq with
  | banner i => simp [State.phase_of_seq hq, Sequencer.phase] at hp
  | emit i => simp [State.phase_of_seq hq, Sequencer.phase] at hp
  | _ => rfl

/-- The delay count is 0 outside DELAY (10_state.md R29). -/
theorem State.dcnt_eq_zero (hp : s.phase ≠ .delay) : s.dcnt = 0 := by
  unfold State.dcnt
  cases hq : s.seq with
  | delay d => exact absurd (State.phase_of_seq hq) hp
  | _ => rfl

theorem State.idx_le_of_banner (hp : s.phase = .banner) : s.idx ≤ 20 := by
  obtain ⟨i, hi, -⟩ := State.txData_eq_memReadBanner_idx hp
  omega

theorem State.idx_le_of_emit (hp : s.phase = .emit) : s.idx ≤ 12 := by
  obtain ⟨i, hi, -⟩ := State.txData_eq_frameByte_idx hp
  omega

/-- Settles O27: each bound is the range of the sequencer's constructor or of a digit. -/
theorem registersStayInTheirBounds : Obligations.RegistersStayInTheirBounds :=
  fun s => ⟨State.idx_le_of_banner, State.idx_le_of_emit, State.idx_eq_zero, State.dcnt_eq_zero, s.dcnt_le,
    fun i => Nat.le_of_lt_succ (s.ctr.digit i).isLt⟩

/-- Settles O25: the columns of the table, operation by operation; DELAY_DONE writes an index that is 0 already. -/
theorem onlyTheWritersWrite : Obligations.OnlyTheWritersWrite := by
  intro i s t h
  obtain ⟨hc, hregs, htx, hsur⟩ := exec_next h
  obtain ⟨hprev, hpol, hctr, hphase, hidx, hdcnt⟩ := State.fields_of_regs hregs
  rw [hprev, hpol, hctr, hphase, hidx, hdcnt, htx]
  cases i with
  | delayDone =>
    obtain ⟨-, hp, -⟩ := hc
    simp [State.regsAfter, State.sentBy, State.idx_eq_zero (.inl hp), hsur]
  | _ => simp [State.regsAfter, State.sentBy, hsur]

/-- Settles O26: the phase and index columns of the table, in the phase that the Condition names. -/
theorem phaseAndIndexAfterEachOperation : Obligations.PhaseAndIndexAfterEachOperation := by
  intro i s t h
  obtain ⟨hc, hregs, -, -⟩ := exec_next h
  obtain ⟨-, -, -, hphase, hidx, -⟩ := State.fields_of_regs hregs
  rw [hphase, hidx]
  cases i with
  | delayTick =>
    obtain ⟨-, hp, -⟩ := hc
    simp [State.regsAfter, hp, State.idx_eq_zero (.inl hp)]
  | pollIdle =>
    obtain ⟨-, hp, -⟩ := hc
    simp [State.regsAfter, hp, State.idx_eq_zero (.inr hp)]
  | bannerSend | emitSend =>
    obtain ⟨-, hp, -⟩ := hc
    simp [State.regsAfter, hp]
  | _ => rfl

end Sys2Proof.Machine
end

section
/-! PROOFS. One edge (30_encoding.md R57, R62): it performs the selected operation as the table says and ends; every
claim about a step follows from this. -/

namespace Sys2Proof.Machine

/-- Settles O2: the selected operation answers a next state, and `endEdge` writes `pending` and `cycle` only. -/
theorem stepPerformsTheSelectedOperation : Obligations.StepPerformsTheSelectedOperation := by
  intro s i hi
  refine ⟨?_, fun t => ⟨rfl, rfl, rfl, rfl, rfl⟩⟩
  obtain ⟨u, hu⟩ := (exec_answers_iff_selected i s).mpr hi
  simp only [step_of_exec hi hu, hu]

/-- The edge from `s` to `t` performed `i`, as the table says of it, and is over. -/
structure EdgePerforms (s : State) (i : Instr) (t : State) : Prop where
  answers : step s = .next t
  condition : s.Condition i
  regs : t.regs = s.regsAfter i
  tx : t.tx = s.tx ++ s.sentBy i
  params : t.params = s.params
  pending : t.pending = s.pending.tail
  cycle : t.cycle = s.cycle + 1

variable {s t : State} {i : Instr}

theorem step_performs (h : step s = .next t) : ∃ i, EdgePerforms s i t := by
  obtain ⟨i, u, -, hu, rfl⟩ := step_next h
  obtain ⟨hc, hregs, htx, hparams, hpending, hcycle⟩ := exec_next hu
  exact ⟨i, h, hc, hregs, htx, hparams, congrArg List.tail hpending, congrArg (· + 1) hcycle⟩

theorem EdgePerforms.selected (h : EdgePerforms s i t) : s.selected = some i := selected_of_condition h.condition

/-- An operation whose Condition holds is the one the edge performs. -/
theorem EdgePerforms.of_step (h : step s = .next t) (hc : s.Condition i) : EdgePerforms s i t := by
  obtain ⟨j, hj⟩ := step_performs h
  obtain rfl : j = i := Option.some.inj (hj.selected.symm.trans (selected_of_condition hc))
  exact hj

theorem performs_of_condition (hc : s.Condition i) : ∃ t, EdgePerforms s i t := by
  obtain ⟨t, ht⟩ := step_answers s
  exact ⟨t, .of_step ht hc⟩

theorem EdgePerforms.ne_reset (h : EdgePerforms s i t) (hr : s.inRst = false) : i ≠ .reset := by
  rintro rfl
  exact Bool.false_ne_true (hr.symm.trans h.condition)

/-- Settles O31: of the operations other than RESET only EMIT_LAST writes `pol` and `ctr`, and TOGGLE and INCREMENT have
no fixed point. -/
theorem toggleAndIncrementAreAtomic : Obligations.ToggleAndIncrementAreAtomic := by
  intro s t h hr
  obtain ⟨i, hi⟩ := step_performs h
  have hne := hi.ne_reset hr
  obtain ⟨-, hpol, hctr, -⟩ := State.fields_of_regs hi.regs
  rw [hi.selected, hpol, hctr]
  cases i with
  | reset => exact absurd rfl hne
  | emitLast => simp [State.regsAfter, increment_ne]
  | _ => simp [State.regsAfter]

/-- Settles O32: the mode after each operation by the phase column of the table, and the mode before it by its
Condition. -/
theorem modesAreEnteredAndLeftAsStated : Obligations.ModesAreEnteredAndLeftAsStated := by
  intro s t h
  obtain ⟨i, hi⟩ := step_performs h
  obtain ⟨hprev, hpol, hctr, hphase, -⟩ := State.fields_of_regs hi.regs
  have hc := hi.condition
  rw [State.mode, State.mode, hi.selected, hprev, hpol, hctr, hphase]
  cases i with
  | reset =>
    have hr : s.inRst = true := hc
    simp [State.regsAfter, Regs.atReset, Phase.mode, hr]
  | txStall =>
    obtain ⟨-, hp | hp, -⟩ := hc <;> simp [State.regsAfter, Phase.mode, hp]
  | _ =>
    obtain ⟨-, hp, -⟩ := hc
    simp [State.regsAfter, Phase.mode, hp]

/-- The branch of R62 taken with reset low is the operation whose Condition holds, with the table's registers. -/
theorem phaseBranch_eq (hr : s.inRst = false) :
    ∃ i, s.Condition i ∧ phaseBranch s.regs s.inSync s.inReady = (i, s.regsAfter i) := by
  cases hp : s.phase with
  | delay =>
    by_cases hd : s.dcnt = 0
    · exact ⟨.delayDone, ⟨hr, hp, hd⟩, by simp [phaseBranch, State.regsAfter, hp, hd]⟩
    · exact ⟨.delayTick, ⟨hr, hp, hd⟩, by simp [phaseBranch, State.regsAfter, hp, hd]⟩
  | banner =>
    cases hy : s.inReady with
    | false => exact ⟨.txStall, ⟨hr, .inl hp, hy⟩, by simp [phaseBranch, State.regsAfter, hp]⟩
    | true =>
      by_cases hx : s.idx = 20
      · exact ⟨.bannerLast, ⟨hr, hp, hy, hx⟩, by simp [phaseBranch, State.regsAfter, hp, hx]⟩
      · exact ⟨.bannerSend, ⟨hr, hp, hy, hx⟩, by simp [phaseBranch, State.regsAfter, hp, hx]⟩
  | poll =>
    by_cases hs : s.inSync = s.prev
    · exact ⟨.pollIdle, ⟨hr, hp, hs⟩, by simp [phaseBranch, State.regsAfter, hp, hs]⟩
    · exact ⟨.pollEdge, ⟨hr, hp, hs⟩, by simp [phaseBranch, State.regsAfter, hp, hs]⟩
  | emit =>
    cases hy : s.inReady with
    | false => exact ⟨.txStall, ⟨hr, .inr hp, hy⟩, by simp [phaseBranch, State.regsAfter, hp]⟩
    | true =>
      by_cases hx : s.idx = 12
      · exact ⟨.emitLast, ⟨hr, hp, hy, hx⟩, by simp [phaseBranch, State.regsAfter, hp, hx]⟩
      · exact ⟨.emitSend, ⟨hr, hp, hy, hx⟩, by simp [phaseBranch, State.regsAfter, hp, hx]⟩

/-- The operation and the registers of R62's step function, reset included. -/
theorem clockEdge_op_regs (s : State) :
    ∃ i, s.Condition i ∧ (clockEdge s.params s.regs s.inRst s.inSync s.inReady).op = i ∧
      (clockEdge s.params s.regs s.inRst s.inSync s.inReady).regs = s.regsAfter i := by
  cases hr : s.inRst with
  | true => exact ⟨.reset, hr, rfl, rfl⟩
  | false =>
    obtain ⟨i, hc, hbranch⟩ := phaseBranch_eq hr
    exact ⟨i, hc, congrArg Prod.fst hbranch, congrArg Prod.snd hbranch⟩

/-- The byte of R62's step function is the byte of the handshake. -/
theorem clockEdge_tx (s : State) :
    (clockEdge s.params s.regs s.inRst s.inSync s.inReady).tx.toList =
      if s.txValid = true ∧ s.inReady = true then [s.txData] else [] := by
  have hv : ((s.phase == .banner || s.phase == .emit) && !s.inRst) = s.txValid := by
    rw [Bool.eq_iff_iff, s.txValid_iff]
    simp
  simp only [clockEdge, s.regs_phase, hv, s.regs_txData, Bool.and_eq_true]
  split <;> rfl

/-- Settles O23: R62's branch is the operation performed, with the table's registers; the byte is the handshake's. -/
theorem stepIsTheCompleteStepFunction : Obligations.StepIsTheCompleteStepFunction := by
  intro s
  obtain ⟨i, hc, hop, hregs⟩ := clockEdge_op_regs s
  obtain ⟨t, ht⟩ := performs_of_condition hc
  refine ⟨t, ht.answers, hop ▸ ht.selected, ht.regs.trans hregs.symm, ?_, ht.params, ht.pending, ht.cycle⟩
  rw [clockEdge_tx]
  exact bytesAreTransferredByTheHandshake s t ht.answers

/-- Settles O28: the reset values are 1 and zero. -/
theorem parityHoldsAtReset : Obligations.ParityHoldsAtReset := by
  unfold Obligations.ParityHoldsAtReset State.ParityInv
  decide

/-- Settles O29: RESET establishes the invariant, EMIT_LAST flips both sides of it, and no other operation writes `pol`
or `ctr`. -/
theorem everyStepKeepsParity : Obligations.EveryStepKeepsParity := by
  intro s t hinv h
  obtain ⟨i, hi⟩ := step_performs h
  obtain ⟨-, hpol, hctr, -⟩ := State.fields_of_regs hi.regs
  unfold State.ParityInv at hinv ⊢
  rw [hpol, hctr]
  cases i with
  | reset => exact parityHoldsAtReset
  | emitLast =>
    simp only [State.regsAfter, increment_digit_zero_parity]
    rw [Bool.not_eq_true', ← Bool.not_eq_true, hinv]
    omega
  | _ => exact hinv

end Sys2Proof.Machine
end

section
/-! PROOFS. The line and its samples (20_memory.md section 3, 40_edge_monitor.md): draws and levels, the inverted line,
changes between samples. -/

namespace Sys2Proof.Machine

variable {s t : State}

theorem State.inSync_of_draw (h : s.inputs.sync = .draw) : s.inSync = Config.freeSync s.cycle := by
  rw [State.inSync, h, Pin.sample]

theorem State.inSync_of_level {b : Bool} (h : s.inputs.sync = .level b) : s.inSync = b := by
  rw [State.inSync, h, Pin.sample]

theorem State.inRst_of_draw (h : s.inputs.rst = .draw) : s.inRst = Config.freeRst s.cycle := by
  rw [State.inRst, h, Pin.sample]

theorem State.inRst_of_level {b : Bool} (h : s.inputs.rst = .level b) : s.inRst = b := by
  rw [State.inRst, h, Pin.sample]

/-- Driving the bit that is sampled anyway changes no step. -/
theorem step_driveSync_inSync (s : State) : step (s.driveSync s.inSync) = step s :=
  step_withInputs (e := { s.inputs with sync := .level s.inSync }) rfl (fun _ => rfl) fun _ => rfl

theorem step_driveRst_inRst (s : State) : step (s.driveRst s.inRst) = step s :=
  step_withInputs (e := { s.inputs with rst := .level s.inRst }) rfl (fun _ => rfl) fun _ => rfl

/-- The bit of `rst` selects RESET or leaves the selection to the other inputs. -/
theorem State.selected_by_rst (s : State) :
    s.selected = if s.inRst then some .reset else (s.driveRst false).selected := by
  cases hr : s.inRst with
  | true => exact selected_reset hr
  | false =>
    rw [State.selected, State.conditionWord, hr]
    rfl

/-- Settles O40: a pin's sample is its level, or the free value of the edge number; driving the sample makes the same
step. -/
theorem violatedSampleIsOneOfTheTwoLevels : Obligations.ViolatedSampleIsOneOfTheTwoLevels := by
  refine fun s => ⟨fun h => ?_, fun b h => ?_, fun h => ?_, fun b h => ?_, fun b => ⟨rfl, rfl⟩⟩
  · rw [← State.inSync_of_draw h]
    refine ⟨(step_driveSync_inSync s).symm, fun hp hr => ?_⟩
    obtain ⟨-, -, -, -, -, hpoll⟩ := resetThenPhaseThenStall s
    obtain ⟨t, ht⟩ := step_answers s
    exact ⟨hpoll hr hp, t, ht, prev_of_step_poll hp hr ht⟩
  · rw [← State.inSync_of_level h]
    exact (step_driveSync_inSync s).symm
  · rw [← State.inRst_of_draw h]
    exact ⟨(step_driveRst_inRst s).symm, s.selected_by_rst⟩
  · rw [← State.inRst_of_level h]
    exact (step_driveRst_inRst s).symm

/-- The end of the edge and the inversion of the line commute. -/
theorem State.endEdge_invertLine (s : State) : s.endEdge.invertLine = s.invertLine.endEdge := by
  simp [State.endEdge, State.invertLine, List.map_tail]

@[simp] theorem State.invertLine_prev (s : State) : s.invertLine.prev = !s.prev := rfl

theorem State.invertLine_inputs {e : EdgeInputs} {rest : List EdgeInputs} (h : s.pending = e :: rest) :
    s.inputs = e ∧ s.invertLine.inputs = { e with sync := e.sync.invert } := by
  simp [State.inputs, State.invertLine, h]

/-- Inverting a driven line inverts the sample of `sync_in` and leaves the other two. -/
theorem State.invertLine_samples {e : EdgeInputs} {rest : List EdgeInputs} {b : Bool} (h : s.pending = e :: rest)
    (hb : e.sync = .level b) :
    s.invertLine.inRst = s.inRst ∧ s.invertLine.inSync = !s.inSync ∧ s.invertLine.inReady = s.inReady := by
  obtain ⟨hin, hinv⟩ := State.invertLine_inputs h
  have hcycle : s.invertLine.cycle = s.cycle := rfl
  simp [State.inRst, State.inSync, State.inReady, hin, hinv, hcycle, hb, Pin.invert, Pin.sample]

/-- If the samples are those of the inverted line, the step from the inverted state leads to the inverted state. -/
theorem step_invertLine (hRst : s.invertLine.inRst = s.inRst) (hSync : s.invertLine.inSync = !s.inSync)
    (hReady : s.invertLine.inReady = s.inReady) (h : step s = .next t) :
    step s.invertLine = .next t.invertLine := by
  cases hr : s.inRst with
  | true =>
    rw [step_of_rst hr] at h
    cases h
    rw [step_of_rst (hRst.trans hr), State.endEdge_invertLine]
    rfl
  | false =>
    have hr' : s.invertLine.inRst = false := hRst.trans hr
    cases hq : s.seq with
    | delay d =>
      rw [step_of_delay hq hr] at h
      cases h
      rw [step_of_delay (s := s.invertLine) hq hr', State.endEdge_invertLine]
      split_ifs <;> rfl
    | banner i =>
      rw [step_of_banner hq hr] at h
      cases h
      rw [step_of_banner (s := s.invertLine) hq hr', State.endEdge_invertLine, hReady]
      split_ifs <;> rfl
    | poll =>
      rw [step_of_poll hq hr] at h
      cases h
      have hedge : (!s.inSync) = (!s.prev) ↔ s.inSync = s.prev := Bool.not_inj_iff
      rw [step_of_poll (s := s.invertLine) hq hr', State.endEdge_invertLine, hSync, s.invertLine_prev]
      simp only [hedge]
      split_ifs <;> rfl
    | emit i =>
      rw [step_of_emit hq hr] at h
      cases h
      rw [step_of_emit (s := s.invertLine) hq hr', State.endEdge_invertLine, hReady]
      split_ifs <;> rfl

/-- Settles O41: every step answers, and the inverted samples carry it over to the inverted line. -/
theorem directionOfTheEdgeHasNoEffect : Obligations.DirectionOfTheEdgeHasNoEffect := by
  rintro s ⟨e, rest, b, hpending, hb⟩
  obtain ⟨hRst, hSync, hReady⟩ := State.invertLine_samples hpending hb
  obtain ⟨t, ht⟩ := step_answers s
  exact ⟨t, ht, step_invertLine hRst hSync hReady ht, rfl, rfl⟩

/-- An even number of changes leads back to the first level, an odd number to the other one. -/
theorem lineChanges_even_iff {a b : Bool} : ∀ {levels : List Bool}, levels.head? = some a →
    levels.getLast? = some b → (lineChanges levels % 2 = 0 ↔ b = a)
  | [x], ha, hb => by
    obtain rfl : x = a := Option.some.inj ha
    obtain rfl : x = b := Option.some.inj hb
    simp [lineChanges]
  | x :: y :: rest, ha, hb => by
    obtain rfl : x = a := Option.some.inj ha
    have ih := lineChanges_even_iff (levels := y :: rest) rfl (List.getLast?_cons_cons ▸ hb)
    by_cases hxy : x = y
    · rw [lineChanges, if_pos hxy, Nat.zero_add, ih, hxy]
    · rw [lineChanges, if_neg hxy, Bool.eq_not.mpr hxy, Bool.eq_not, Ne, ← ih]
      omega

/-- Settles O42: the parity of the changes says whether the sample differs from `prev`, and so which of the two
operations of POLL the edge performs. -/
theorem changesCoalesceByParity : Obligations.ChangesCoalesceByParity := by
  intro s t levels hp hr hhead hlast h
  have heven := lineChanges_even_iff hhead hlast
  refine ⟨fun hodd => ?_, fun hev => ?_⟩
  · have hne : s.inSync ≠ s.prev := mt heven.mpr (by omega)
    have hedge : EdgePerforms s .pollEdge t := .of_step h ⟨hr, hp, hne⟩
    obtain ⟨hprev, -, -, hphase, -⟩ := State.fields_of_regs hedge.regs
    exact ⟨hedge.selected, hphase, hprev⟩
  · have hidle : EdgePerforms s .pollIdle t := .of_step h ⟨hr, hp, heven.mp hev⟩
    exact ⟨hidle.selected, hidle.regs⟩

/-- Settles O50: the width is one more than the binary logarithm, and the parameter bounds the delay count. -/
theorem delayCounterWidthIsSmallest : Obligations.DelayCounterWidthIsSmallest := by
  have hlt : ∀ p : Params, p.startupDelayCycles < 2 ^ p.dcntWidth := fun p => Nat.lt_log2_self
  refine ⟨fun p => ⟨Nat.succ_pos _, hlt p, fun w hw hfit => ?_⟩, fun s => Nat.lt_of_le_of_lt s.dcnt_le (hlt s.params)⟩
  by_cases h0 : p.startupDelayCycles = 0
  · rw [Params.dcntWidth, h0]
    exact hw
  · exact (Nat.log2_lt h0).mpr hfit

end Sys2Proof.Machine
end

section
/-! PROOFS. Runs (10_state.md R26): how a run is cut into its edges, and an invariant over the operations performed. -/

namespace Sys2Proof.Machine

variable {s t u : State} {i : Instr} {m n : Nat}

/-- A run begins with the edge it begins with. -/
theorem run_succ_cases (h : run (n + 1) s = .next t) :
    ∃ i u, EdgePerforms s i u ∧ run n u = .next t ∧ performed (n + 1) s = i :: performed n u := by
  obtain ⟨u, hu⟩ := step_answers s
  obtain ⟨i, hi⟩ := step_performs hu
  exact ⟨i, u, hi, (run_succ_of_step hu n).symm.trans h, performed_succ_of_step hi.selected hu n⟩

theorem EdgePerforms.run_succ (h : EdgePerforms s i u) (n : Nat) : run (n + 1) s = run n u :=
  run_succ_of_step h.answers n

theorem EdgePerforms.performed_succ (h : EdgePerforms s i u) (n : Nat) :
    performed (n + 1) s = i :: performed n u := performed_succ_of_step h.selected h.answers n

theorem performed_length (n : Nat) (s : State) : (performed n s).length = n := by
  obtain ⟨_, -, hlen⟩ := everyRunGoesOn n s
  exact hlen

/-- A run of `m + n` edges is a run of `m` and then a run of `n`. -/
theorem run_add (h : run m s = .next u) (n : Nat) :
    run (m + n) s = run n u ∧ performed (m + n) s = performed m s ++ performed n u := by
  induction m generalizing s with
  | zero =>
    cases h
    rw [Nat.zero_add]
    exact ⟨rfl, rfl⟩
  | succ m ih =>
    obtain ⟨i, v, hi, hv, hperf⟩ := run_succ_cases h
    obtain ⟨hrun, hops⟩ := ih hv
    rw [Nat.add_right_comm, hi.run_succ, hi.performed_succ, hrun, hops, hperf, List.cons_append]
    exact ⟨rfl, rfl⟩

/-- A run drops the inputs of its edges and counts them (log entry 2). -/
theorem run_pending_cycle (h : run m s = .next u) : u.pending = s.pending.drop m ∧ u.cycle = s.cycle + m := by
  induction m generalizing s with
  | zero =>
    cases h
    exact ⟨rfl, rfl⟩
  | succ m ih =>
    obtain ⟨i, v, hi, hv, -⟩ := run_succ_cases h
    obtain ⟨hpending, hcycle⟩ := ih hv
    rw [hpending, hcycle, hi.pending, hi.cycle, List.drop_tail]
    exact ⟨rfl, Nat.succ_add_eq_add_succ s.cycle m⟩

/-- The samples `k` edges after a run of `m` edges are those `m + k` edges ahead before it. -/
theorem run_skip_samples (h : run m s = .next u) (k : Nat) :
    (u.skip k).inRst = (s.skip (m + k)).inRst ∧ (u.skip k).inSync = (s.skip (m + k)).inSync ∧
      (u.skip k).inReady = (s.skip (m + k)).inReady := by
  obtain ⟨hpending, hcycle⟩ := run_pending_cycle h
  refine State.inputs_congr ?_ ?_
  · simp only [State.skip, hpending, List.drop_drop]
  · simp only [State.skip, hcycle, Nat.add_assoc]

theorem EdgePerforms.run_one (h : EdgePerforms s i u) : run 1 s = .next u := h.run_succ 0

theorem State.RstLowFor.head (h : s.RstLowFor (n + 1)) : s.inRst = false := h 0 (Nat.succ_pos n)

theorem State.RstLowFor.after_run (h : s.RstLowFor (m + n)) (hu : run m s = .next u) : u.RstLowFor n := by
  intro k hk
  obtain ⟨hrst, -, -⟩ := run_skip_samples hu k
  rw [hrst]
  exact h (m + k) (Nat.add_lt_add_left hk m)

theorem State.RstLowFor.tail (h : s.RstLowFor (n + 1)) (hu : EdgePerforms s i u) : u.RstLowFor n :=
  State.RstLowFor.after_run (Nat.add_comm n 1 ▸ h) hu.run_one

/-- An invariant of the operations performed so far, kept by every edge of the run, holds at the run's end. -/
theorem run_performs_induction {P : State → List Instr → Prop} (h : run n s = .next t) (hs : P s [])
    (hedge : ∀ {u v l i}, P u l → EdgePerforms u i v → i ∈ performed n s → P v (l ++ [i])) :
    P t (performed n s) := by
  induction n generalizing s P with
  | zero =>
    cases h
    exact hs
  | succ n ih =>
    obtain ⟨i, u, hi, hu, hperf⟩ := run_succ_cases h
    rw [hperf] at hedge ⊢
    refine ih (P := fun v l => P v (i :: l)) hu (hedge hs hi List.mem_cons_self) fun hP hj hmem => ?_
    exact hedge hP hj (List.mem_cons_of_mem i hmem)

/-- A Condition reads the registers and the samples only. -/
theorem State.condition_congr (hregs : t.regs = s.regs) (hrst : t.inRst = s.inRst) (hsync : t.inSync = s.inSync)
    (hready : t.inReady = s.inReady) : t.Condition i ↔ s.Condition i := by
  obtain ⟨hprev, -, -, hphase, hidx, hdcnt⟩ := State.fields_of_regs hregs
  cases i <;> simp [State.Condition, hrst, hsync, hready, hprev, hphase, hidx, hdcnt]

/-- An operation that changes nothing is performed at every edge at which the samples ask for it. -/
theorem run_of_idle (hidle : ∀ v : State, v.regsAfter i = v.regs ∧ v.sentBy i = [])
    (hc : ∀ k, k < n → (s.skip k).Condition i) :
    ∃ t, run n s = .next t ∧ performed n s = List.replicate n i ∧ t.regs = s.regs ∧ t.tx = s.tx := by
  induction n generalizing s with
  | zero => exact ⟨s, rfl, rfl, rfl, rfl⟩
  | succ n ih =>
    obtain ⟨u, hu⟩ := performs_of_condition (hc 0 (Nat.succ_pos n))
    rw [State.skip_zero] at hu
    obtain ⟨hregs, hsent⟩ := hidle s
    have huregs : u.regs = s.regs := hu.regs.trans hregs
    have hutx : u.tx = s.tx := by rw [hu.tx, hsent, List.append_nil]
    have huc : ∀ k, k < n → (u.skip k).Condition i := fun k hk => by
      obtain ⟨hrst, hsync, hready⟩ := run_skip_samples hu.run_one k
      rw [Nat.add_comm] at hrst hsync hready
      have hcongr := State.condition_congr (i := i) (t := u.skip k) (s := s.skip (k + 1)) huregs hrst hsync hready
      exact hcongr.mpr (hc (k + 1) (Nat.succ_lt_succ hk))
    obtain ⟨t, ht, hperf, htregs, httx⟩ := ih huc
    exact ⟨t, (hu.run_succ n).trans ht, by rw [hu.performed_succ, hperf]; rfl, htregs.trans huregs, httx.trans hutx⟩

/-- Settles O37: each edge asks for TX_STALL, which changes nothing, and `tx_data` and `tx_valid` are functions of the
registers and of `rst`. -/
theorem offerIsHeldUntilTaken : Obligations.OfferIsHeldUntilTaken := by
  intro n s hp hlow hready
  have hc : ∀ k, k < n → (s.skip k).Condition .txStall := fun k hk => ⟨hlow k hk, hp, hready k hk⟩
  obtain ⟨t, ht, hperf, hregs, htx⟩ := run_of_idle (fun _ => ⟨rfl, rfl⟩) hc
  have hphase : t.phase = s.phase := congrArg Regs.phase hregs
  exact ⟨t, ht, hperf, hregs, htx, State.txData_congr hregs, fun hr => t.txValid_iff.mpr ⟨hphase ▸ hp, hr⟩⟩

/-- Settles O59: each edge asks for POLL_IDLE, which changes nothing. -/
theorem steadyLineSendsNothing : Obligations.SteadyLineSendsNothing :=
  fun _ _ hp hlow hsync => run_of_idle (fun _ => ⟨rfl, rfl⟩) fun k hk => ⟨hlow k hk, hp, hsync k hk⟩

/-- Settles O51, by induction on the number of edges: each of them is a RESET, and RESET leaves the parameters. -/
theorem heldResetIsOneReset : Obligations.HeldResetIsOneReset := by
  intro n
  induction n with
  | zero =>
    intro s hrst
    obtain ⟨u, hu⟩ := performs_of_condition (s := s) (i := .reset) (hrst 0 Nat.one_pos)
    exact ⟨u, hu.run_one, hu.regs, hu.tx.trans (List.append_nil _)⟩
  | succ n ih =>
    intro s hrst
    obtain ⟨u, hu⟩ := performs_of_condition (s := s) (i := .reset) (hrst 0 (Nat.succ_pos _))
    have hurst : ∀ k, k < n + 1 → (u.skip k).inRst = true := fun k hk => by
      obtain ⟨hk', -, -⟩ := run_skip_samples hu.run_one k
      rw [hk', Nat.add_comm]
      exact hrst (k + 1) (Nat.succ_lt_succ hk)
    obtain ⟨t, ht, hregs, htx⟩ := ih u hurst
    exact ⟨t, (hu.run_succ _).trans ht, hu.params ▸ hregs, htx.trans (hu.tx.trans (List.append_nil _))⟩

/-- A byte on offer is transferred at the edge at which the sink is ready. -/
theorem transfer_of_ready (hp : s.phase = .banner ∨ s.phase = .emit) (hr : s.inRst = false) (hy : s.inReady = true) :
    ∃ i t, i ∈ [Instr.bannerSend, Instr.bannerLast, Instr.emitSend, Instr.emitLast] ∧ EdgePerforms s i t ∧
      t.tx = s.tx ++ [s.txData] := by
  obtain ⟨t, ht⟩ := step_answers s
  obtain ⟨i, hi⟩ := step_performs ht
  have htx := bytesAreTransferredByTheHandshake s t ht
  rw [if_pos ⟨s.txValid_iff.mpr ⟨hp, hr⟩, hy⟩] at htx
  have hsent : s.sentBy i = [s.txData] := List.append_cancel_left (hi.tx.symm.trans htx)
  refine ⟨i, t, ?_, hi, htx⟩
  cases i <;> simp [State.sentBy] at hsent ⊢

/-- Settles O52: the stalls leave the registers, so the byte that is taken is the one first on offer. -/
theorem sendByteIsStallsThenOneTransfer : Obligations.SendByteIsStallsThenOneTransfer := by
  intro n s hp hlow hstall hready
  obtain ⟨u, hu, hperf, hregs, htx, hdata, -⟩ :=
    offerIsHeldUntilTaken n s hp (fun k hk => hlow k (Nat.lt_succ_of_lt hk)) hstall
  obtain ⟨hrst, -, hy⟩ := run_skip_samples hu 0
  have hphase : u.phase = s.phase := congrArg Regs.phase hregs
  obtain ⟨i, t, hi, ht, httx⟩ :=
    transfer_of_ready (s := u) (hphase ▸ hp) (hrst.trans (hlow n (Nat.lt_succ_self n))) (hy.trans hready)
  obtain ⟨hrun, hops⟩ := run_add hu 1
  refine ⟨i, t, hrun.trans ht.run_one, ?_, hi, by rw [httx, htx, hdata]⟩
  rw [hops, hperf, ht.performed_succ]
  rfl

/-- From a delay count `d` the wait is `d` ticks and one DELAY_DONE, by induction on `d`. -/
theorem run_delay {d : Nat} (hp : s.phase = .delay) (hd : s.dcnt = d) (hlow : s.RstLowFor (d + 1)) :
    ∃ t, run (d + 1) s = .next t ∧ performed (d + 1) s = List.replicate d .delayTick ++ [.delayDone] ∧
      t.regs = { s.regs with phase := .banner, idx := 0, dcnt := 0 } ∧ t.tx = s.tx := by
  induction d generalizing s with
  | zero =>
    obtain ⟨t, ht⟩ := performs_of_condition (i := .delayDone) ⟨hlow.head, hp, hd⟩
    refine ⟨t, ht.run_one, ht.performed_succ 0, ?_, ht.tx.trans (List.append_nil _)⟩
    rw [ht.regs, State.regsAfter, s.regs_dcnt, hd]
  | succ d ih =>
    obtain ⟨u, hu⟩ := performs_of_condition (i := .delayTick) ⟨hlow.head, hp, by omega⟩
    obtain ⟨-, -, -, hphase, -, hdcnt⟩ := State.fields_of_regs hu.regs
    have hud : u.dcnt = d := by rw [hdcnt, State.regsAfter, hd, Nat.add_sub_cancel]
    obtain ⟨t, ht, hperf, hregs, htx⟩ := ih (hphase.trans hp) hud (hlow.tail hu)
    refine ⟨t, (hu.run_succ _).trans ht, ?_, ?_, ?_⟩
    · rw [hu.performed_succ, hperf]
      rfl
    · rw [hregs, hu.regs, State.regsAfter]
    · rw [htx, hu.tx, State.sentBy, List.append_nil]

/-- Settles O53: `run_delay` from the count that stands in `dcnt`. -/
theorem delayLastsItsCountPlusOne : Obligations.DelayLastsItsCountPlusOne :=
  fun _ hp hlow => run_delay hp rfl hlow

end Sys2Proof.Machine
end

section
/-! PROOFS. Lines of text under any stalls (20_memory.md R53): the banner in BANNER and the record in EMIT are sent byte
by byte from `idx` on, at the edges at which the sink is ready. -/

namespace Sys2Proof.Machine

variable {s t u : State} {i : Instr} {m n : Nat}

/-- The line of text that a phase sends: the banner, the record of the `pol` and `ctr` held, or none. -/
def State.line (s : State) : List Byte :=
  match s.phase with
  | .banner => bannerRom
  | .emit => record s.pol s.ctr
  | .delay => []
  | .poll => []

theorem State.line_of_banner (hp : s.phase = .banner) : s.line = bannerRom := by
  rw [State.line, hp]

theorem State.line_of_emit (hp : s.phase = .emit) : s.line = record s.pol s.ctr := by
  rw [State.line, hp]

theorem State.line_congr (hphase : t.phase = s.phase) (hpol : t.pol = s.pol) (hctr : t.ctr = s.ctr) :
    t.line = s.line := by
  unfold State.line
  rw [hphase, hpol, hctr]

/-- The byte on offer is the line's byte at `idx` (20_memory.md R40). -/
theorem State.line_getElem?_idx (hp : s.phase = .banner ∨ s.phase = .emit) : s.line[s.idx]? = some s.txData := by
  obtain hp | hp := hp
  · obtain ⟨i, hi, hbyte⟩ := State.txData_eq_memReadBanner_idx hp
    rw [State.line_of_banner hp, ← hi, hbyte]
    exact List.getElem?_eq_getElem i.isLt
  · obtain ⟨i, hi, hbyte⟩ := State.txData_eq_frameByte_idx hp
    rw [State.line_of_emit hp, ← hi, hbyte]
    exact List.getElem?_eq_getElem i.isLt

theorem State.line_take_succ_idx (hp : s.phase = .banner ∨ s.phase = .emit) :
    s.line.take (s.idx + 1) = s.line.take s.idx ++ [s.txData] := by
  rw [List.take_add_one, State.line_getElem?_idx hp, Option.toList_some]

theorem State.line_drop_idx (hp : s.phase = .banner ∨ s.phase = .emit) :
    s.line.drop s.idx = s.txData :: s.line.drop (s.idx + 1) := by
  rw [List.drop_eq_getElem?_toList_append, State.line_getElem?_idx hp, Option.toList_some, List.singleton_append]

/-- The operation that sends the last byte of the line and leaves the phase. -/
def Phase.closing : Phase → Instr
  | .banner => .bannerLast
  | _ => .emitLast

/-- At the last index the edge that transfers leaves the phase. -/
theorem performs_closing (hp : s.phase = .banner ∨ s.phase = .emit) (hr : s.inRst = false) (hy : s.inReady = true)
    (hx : s.idx + 1 = s.line.length) :
    ∃ t, EdgePerforms s (Phase.closing s.phase) t ∧ t.tx = s.tx ++ [s.txData] := by
  obtain hp | hp := hp
  · rw [State.line_of_banner hp, bannerRom_length, bannerLen] at hx
    obtain ⟨t, ht⟩ := performs_of_condition (i := .bannerLast) ⟨hr, hp, hy, by omega⟩
    exact ⟨t, by rwa [hp], ht.tx⟩
  · rw [State.line_of_emit hp, record_length, frameLen] at hx
    obtain ⟨t, ht⟩ := performs_of_condition (i := .emitLast) ⟨hr, hp, hy, by omega⟩
    exact ⟨t, by rwa [hp], ht.tx⟩

/-- Before the last index the edge that transfers advances the index. -/
theorem performs_sending (hp : s.phase = .banner ∨ s.phase = .emit) (hr : s.inRst = false) (hy : s.inReady = true)
    (hx : s.idx + 1 < s.line.length) :
    ∃ i t, EdgePerforms s i t ∧ t.regs = { s.regs with idx := s.idx + 1 } ∧ t.tx = s.tx ++ [s.txData] := by
  obtain hp | hp := hp
  · rw [State.line_of_banner hp, bannerRom_length, bannerLen] at hx
    obtain ⟨t, ht⟩ := performs_of_condition (i := .bannerSend) ⟨hr, hp, hy, by omega⟩
    exact ⟨_, t, ht, ht.regs, ht.tx⟩
  · rw [State.line_of_emit hp, record_length, frameLen] at hx
    obtain ⟨t, ht⟩ := performs_of_condition (i := .emitSend) ⟨hr, hp, hy, by omega⟩
    exact ⟨_, t, ht, ht.regs, ht.tx⟩

theorem State.SinkTakes.after_run {total : Nat} (h : s.SinkTakes m n total) (hu : run m s = .next u) :
    u.SinkTakes 0 n total := by
  obtain ⟨hn, hcount, hlast⟩ := h
  have hready : ∀ k, (u.skip (0 + k)).inReady = (s.skip (m + k)).inReady := fun k => by
    obtain ⟨-, -, hk⟩ := run_skip_samples hu k
    rw [Nat.zero_add, hk]
  exact ⟨hn, by simpa only [hready] using hcount, (hready _).trans hlast⟩

/-- The sink's last byte is one of those it takes. -/
theorem State.SinkTakes.total_pos {start total : Nat} (h : s.SinkTakes start n total) : 0 < total := by
  obtain ⟨hn, hcount, hlast⟩ := h
  rw [← hcount, List.countP_pos_iff]
  exact ⟨n - 1, List.mem_range.mpr (Nat.sub_lt hn Nat.one_pos), hlast⟩

/-- The first edge is the last one, or the sink takes the other bytes after it. -/
theorem State.SinkTakes.head_cases {total : Nat} (h : s.SinkTakes 0 (n + 1) total) :
    (n = 0 ∧ s.inReady = true ∧ total = 1) ∨ ∃ rest, s.SinkTakes 1 n rest ∧ total = rest + s.inReady.toNat := by
  obtain ⟨-, hcount, hlast⟩ := h
  rw [List.range_succ_eq_map, List.countP_cons, List.countP_map] at hcount
  cases n with
  | zero =>
    have hy : s.inReady = true := hlast
    refine .inl ⟨rfl, hy, ?_⟩
    simpa [hy] using hcount.symm
  | succ n =>
    refine .inr ⟨_, ⟨Nat.succ_pos n, rfl, ?_⟩, ?_⟩
    · rw [← hlast, Nat.add_sub_cancel, Nat.add_sub_cancel, Nat.zero_add, Nat.add_comm]
    · rw [← hcount]
      congr 1
      · refine List.countP_congr fun k _ => ?_
        rw [Function.comp_apply, Nat.zero_add, Nat.succ_eq_one_add]
      · cases hy : s.inReady <;> simp [hy]

/-- At the edges at which the sink takes what is left of the line, exactly that is sent, and the last edge performs the
closing operation of the phase; no register but `idx` changes before it. -/
theorem run_line (hp : s.phase = .banner ∨ s.phase = .emit) (hlow : s.RstLowFor n)
    (htakes : s.SinkTakes 0 n (s.line.length - s.idx)) :
    ∃ u t : State, run n s = .next t ∧ t.tx = s.tx ++ s.line.drop s.idx ∧
      u.regs = { s.regs with idx := s.line.length - 1 } ∧ t.regs = u.regsAfter (Phase.closing s.phase) := by
  induction n generalizing s with
  | zero => exact absurd htakes.1 (Nat.lt_irrefl 0)
  | succ n ih =>
    obtain ⟨rfl, hy, htotal⟩ | ⟨rest, htakes', htotal⟩ := htakes.head_cases
    · have hx : s.idx + 1 = s.line.length := by omega
      obtain ⟨t, ht, htx⟩ := performs_closing hp hlow.head hy hx
      refine ⟨s, t, ht.run_one, ?_, ?_, ht.regs⟩
      · rw [htx, State.line_drop_idx hp, hx, List.drop_length]
      · rw [← hx, Nat.add_sub_cancel]
        rfl
    · have hpos := htakes'.total_pos
      cases hy : s.inReady with
      | false =>
        rw [hy, Bool.toNat_false, Nat.add_zero] at htotal
        obtain ⟨v, hv⟩ := performs_of_condition (i := .txStall) ⟨hlow.head, hp, hy⟩
        have hvregs : v.regs = s.regs := hv.regs
        obtain ⟨-, hpol, hctr, hphase, hidx, -⟩ := State.fields_of_regs hvregs
        have hvphase : v.phase = s.phase := hphase
        have hline : v.line = s.line := State.line_congr hvphase hpol hctr
        have hvtakes : v.SinkTakes 0 n (v.line.length - v.idx) := by
          rw [hline, hidx, s.regs_idx, htotal]
          exact htakes'.after_run hv.run_one
        obtain ⟨u, t, ht, htx, huregs, htregs⟩ := ih (hvphase ▸ hp) (hlow.tail hv) hvtakes
        refine ⟨u, t, (hv.run_succ n).trans ht, ?_, ?_, hvphase ▸ htregs⟩
        · rw [htx, hv.tx, State.sentBy, List.append_nil, hline, hidx, s.regs_idx]
        · rw [huregs, hvregs, hline]
      | true =>
        rw [hy, Bool.toNat_true] at htotal
        obtain ⟨i, v, hv, hvregs, hvtx⟩ := performs_sending hp hlow.head hy (by omega)
        obtain ⟨-, hpol, hctr, hphase, hidx, -⟩ := State.fields_of_regs hvregs
        have hvphase : v.phase = s.phase := hphase
        have hline : v.line = s.line := State.line_congr hvphase hpol hctr
        have hvtakes : v.SinkTakes 0 n (v.line.length - v.idx) := by
          rw [hline, hidx, Nat.sub_add_eq, htotal]
          exact htakes'.after_run hv.run_one
        obtain ⟨u, t, ht, htx, huregs, htregs⟩ := ih (hvphase ▸ hp) (hlow.tail hv) hvtakes
        refine ⟨u, t, (hv.run_succ n).trans ht, ?_, ?_, hvphase ▸ htregs⟩
        · rw [htx, hvtx, hline, hidx, State.line_drop_idx hp, List.append_assoc, List.singleton_append]
        · rw [huregs, hvregs, hline]

/-- Settles O54: the wait ends in BANNER at index 0, the whole banner is sent, and BANNER_LAST leaves the other
registers at their reset values. -/
theorem startupSendsTheBanner : Obligations.StartupSendsTheBanner := by
  intro s n hreset hlow htakes
  obtain ⟨-, -, -, hphase, -, hdcnt⟩ := State.fields_of_regs hreset
  obtain ⟨u, hu, -, huregs, hutx⟩ := run_delay hphase hdcnt fun k hk => hlow k (Nat.lt_add_right n hk)
  obtain ⟨-, -, -, huphase, huidx, -⟩ := State.fields_of_regs huregs
  have hline : u.line = bannerRom := State.line_of_banner huphase
  have hutakes : u.SinkTakes 0 n (u.line.length - u.idx) := by
    rw [hline, huidx]
    exact htakes.after_run hu
  obtain ⟨v, t, ht, htx, hvregs, htregs⟩ := run_line (.inl huphase) (hlow.after_run hu) hutakes
  obtain ⟨hrun, -⟩ := run_add hu n
  refine ⟨t, hrun.trans ht, ?_, ?_⟩
  · rw [htx, hutx, hline, huidx, List.drop_zero]
  · rw [htregs, huphase, Phase.closing, State.regsAfter, hvregs, huregs, hreset, Regs.atReset]

/-- Settles O55: POLL_EDGE enters EMIT at index 0, the whole record of the `pol` and `ctr` held is sent, and EMIT_LAST
toggles and increments them. -/
theorem detectedEdgeSendsOneRecord : Obligations.DetectedEdgeSendsOneRecord := by
  intro s n hp hs hlow htakes
  obtain ⟨u, hu⟩ := performs_of_condition (i := .pollEdge) ⟨hlow.head, hp, hs⟩
  obtain ⟨-, hupol, huctr, huphase, huidx, -⟩ := State.fields_of_regs hu.regs
  have hline : u.line = record s.pol s.ctr := by rw [State.line_of_emit huphase, hupol, huctr]; rfl
  have hutakes : u.SinkTakes 0 n (u.line.length - u.idx) := by
    rw [hline, huidx]
    exact htakes.after_run hu.run_one
  obtain ⟨v, t, ht, htx, hvregs, htregs⟩ := run_line (.inr huphase) (hlow.tail hu) hutakes
  obtain ⟨-, hvpol, hvctr, -⟩ := State.fields_of_regs hvregs
  refine ⟨t, (hu.run_succ n).trans ht, ?_, ?_⟩
  · rw [htx, hu.tx, State.sentBy, List.append_nil, hline, huidx]
    rfl
  · have hclosing : Phase.closing u.phase = .emitLast := congrArg Phase.closing huphase
    rw [htregs, hclosing, State.regsAfter, hvregs, hvpol, hvctr, hu.regs]
    simp [State.regsAfter, hp, State.idx_eq_zero (.inr hp)]

end Sys2Proof.Machine
end

section
/-! PROOFS. Runs without reset (41_sequence_counter.md, 43_main_loop.md R113, 70_reset_and_hazards.md section 3): each
claim is an invariant over the operations performed, kept by every edge. -/

namespace Sys2Proof.Machine

variable {s t u v : State} {i : Instr} {l : List Instr} {n : Nat}

/-- An operation of a run without reset is none. -/
theorem ne_reset_of_mem (hl : Instr.reset ∉ performed n s) (hi : i ∈ performed n s) : i ≠ .reset :=
  fun h => hl (h ▸ hi)

/-- Since `s`, one increment and one toggle for each EMIT_LAST among the operations performed (R92, R93). -/
structure CountsRecords (s u : State) (l : List Instr) : Prop where
  ctr : u.ctr.val = (s.ctr.val + l.count .emitLast) % 1000000000
  pol : u.pol = s.pol ↔ l.count .emitLast % 2 = 0

theorem countsRecords_refl (s : State) : CountsRecords s s [] :=
  ⟨by rw [List.count_nil, Nat.add_zero, Nat.mod_eq_of_lt s.ctr.val_lt], by simp⟩

theorem CountsRecords.edge (h : CountsRecords s u l) (hi : EdgePerforms u i v) (hne : i ≠ .reset) :
    CountsRecords s v (l ++ [i]) := by
  obtain ⟨hctr, hpol⟩ := h
  obtain ⟨-, hvpol, hvctr, -⟩ := State.fields_of_regs hi.regs
  cases i with
  | reset => exact absurd rfl hne
  | emitLast =>
    constructor
    · rw [hvctr, State.regsAfter, increment_val, hctr, List.count_append, List.count_singleton_self]
      omega
    · rw [hvpol, State.regsAfter, Bool.not_eq, Ne, hpol, List.count_append, List.count_singleton_self]
      omega
  | _ =>
    constructor
    · simpa [hvctr, State.regsAfter] using hctr
    · simpa [hvpol, State.regsAfter] using hpol

theorem run_countsRecords (h : run n s = .next t) (hl : Instr.reset ∉ performed n s) :
    CountsRecords s t (performed n s) :=
  run_performs_induction h (countsRecords_refl s) fun hP hi hmem => hP.edge hi (ne_reset_of_mem hl hmem)

/-- Settles O30: `run_countsRecords`, where the counter and the polarity at reset are zero and 1. -/
theorem counterCountsCompletedRecords : Obligations.CounterCountsCompletedRecords := by
  intro n s t h hl
  obtain ⟨hctr, hpol⟩ := run_countsRecords h hl
  refine ⟨hctr, hpol, fun hreset => ?_⟩
  obtain ⟨-, hspol, hsctr, -⟩ := State.fields_of_regs hreset
  rw [hsctr, Regs.atReset, Counter.zero_val, Nat.zero_add] at hctr
  rw [hspol, Regs.atReset] at hpol
  exact ⟨hctr, hpol⟩

/-- After a reset with `k` records complete, the record of the `pol` and `ctr` held is record number `k`. -/
theorem CountsRecords.record_eq (h : CountsRecords s u l) (hreset : s.regs = Regs.atReset s.params) :
    record u.pol u.ctr = recordNo (l.count .emitLast) := by
  obtain ⟨hctr, hpol⟩ := h
  obtain ⟨-, hspol, hsctr, -⟩ := State.fields_of_regs hreset
  rw [hsctr, Regs.atReset, Counter.zero_val, Nat.zero_add] at hctr
  rw [hspol, Regs.atReset] at hpol
  have hupol : u.pol = (l.count .emitLast % 2 == 0) := by rw [Bool.eq_iff_iff, hpol, beq_iff_eq]
  rw [recordNo, ctrMod, ← hctr, digits_val, hupol]

/-- What an edge sends takes the stream of R113 to the stream after it. `k` records are complete before it, none in
Startup, and the one in progress is number `k`. -/
theorem streamSinceReset_edge {k : Nat} (hi : EdgePerforms u i v) (hne : i ≠ .reset)
    (hstartup : u.mode = .startup → k = 0) (hrec : record u.pol u.ctr = recordNo k) :
    streamSinceReset u.mode k u.idx ++ u.sentBy i = streamSinceReset v.mode (k + [i].count .emitLast) v.idx := by
  obtain ⟨-, -, -, hphase, hidx, -⟩ := State.fields_of_regs hi.regs
  have hc := hi.condition
  rw [State.mode] at hstartup ⊢
  rw [State.mode, hphase, hidx]
  cases i with
  | reset => exact absurd rfl hne
  | delayTick => exact List.append_nil _
  | txStall => exact List.append_nil _
  | pollIdle => exact List.append_nil _
  | delayDone =>
    obtain ⟨-, hp, -⟩ := hc
    rw [hp, State.idx_eq_zero (.inl hp)]
    rfl
  | pollEdge =>
    obtain ⟨-, hp, -⟩ := hc
    rw [hp, State.idx_eq_zero (.inr hp)]
    exact List.append_nil _
  | bannerSend =>
    obtain ⟨-, hp, -⟩ := hc
    have htake := State.line_take_succ_idx (.inl hp)
    rw [State.line_of_banner hp] at htake
    simp only [State.regsAfter, State.sentBy, u.regs_phase, hp]
    exact htake.symm
  | bannerLast =>
    obtain ⟨-, hp, -, hx⟩ := hc
    have htake := State.line_take_succ_idx (.inl hp)
    rw [State.line_of_banner hp, hx] at htake
    rw [hp] at hstartup
    rw [hp, hx, hstartup rfl]
    exact htake.symm
  | emitSend =>
    obtain ⟨-, hp, -⟩ := hc
    have htake := State.line_take_succ_idx (.inr hp)
    rw [State.line_of_emit hp, hrec] at htake
    simp only [State.regsAfter, State.sentBy, u.regs_phase, hp, Phase.mode, streamSinceReset, List.append_assoc,
      ← htake]
    rfl
  | emitLast =>
    obtain ⟨-, hp, -, hx⟩ := hc
    have htake := State.line_take_succ_idx (.inr hp)
    rw [State.line_of_emit hp, hrec, hx] at htake
    have hrecord : recordNo k = (recordNo k).take 12 ++ [u.txData] := htake
    simp only [State.regsAfter, State.sentBy, hp, hx, Phase.mode, streamSinceReset, List.append_assoc, ← hrecord,
      List.count_singleton_self, List.range_succ, List.flatMap_append, List.flatMap_singleton, List.take_zero,
      List.append_nil]

/-- After a reset: the records counted, none complete in Startup, and the stream of R113. -/
structure StreamInv (s u : State) (l : List Instr) : Prop where
  counts : CountsRecords s u l
  startup : u.mode = .startup → l.count .emitLast = 0
  stream : u.tx = s.tx ++ streamSinceReset u.mode (l.count .emitLast) u.idx

theorem streamInv_of_reset (hreset : s.regs = Regs.atReset s.params) : StreamInv s s [] := by
  obtain ⟨-, -, -, hphase, hidx, -⟩ := State.fields_of_regs hreset
  refine ⟨countsRecords_refl s, fun _ => rfl, ?_⟩
  rw [State.mode, hphase, hidx]
  exact (List.append_nil s.tx).symm

theorem StreamInv.edge (h : StreamInv s u l) (hreset : s.regs = Regs.atReset s.params) (hi : EdgePerforms u i v)
    (hne : i ≠ .reset) : StreamInv s v (l ++ [i]) := by
  obtain ⟨hcounts, hstartup, hstream⟩ := h
  refine ⟨hcounts.edge hi hne, fun hv => ?_, ?_⟩
  · obtain ⟨-, hexit, -⟩ := modesAreEnteredAndLeftAsStated u v hi.answers
    have hu : u.mode = .startup := by
      cases hm : u.mode with
      | startup => rfl
      | polling => exact absurd (Option.some.inj (hi.selected.symm.trans ((hexit hm).mp hv))) hne
    have hne' : i ≠ .emitLast := by
      rintro rfl
      obtain ⟨-, hp, -⟩ := hi.condition
      simp [State.mode, hp, Phase.mode] at hu
    rw [List.count_append, hstartup hu, List.count_singleton, beq_false_of_ne hne']
    rfl
  · rw [hi.tx, hstream, List.append_assoc, List.count_append,
      streamSinceReset_edge hi hne hstartup (hcounts.record_eq hreset)]

/-- Settles O56: the invariant `StreamInv` at the end of the run. -/
theorem streamIsBannerThenNumberedRecords : Obligations.StreamIsBannerThenNumberedRecords := by
  intro n s t hreset h hl
  have hinv : StreamInv s t (performed n s) :=
    run_performs_induction h (streamInv_of_reset hreset) fun hP hi hmem =>
      hP.edge hreset hi (ne_reset_of_mem hl hmem)
  exact hinv.stream

/-- Since the POLL_EDGE from `s`: in EMIT one edge a byte sent, one for each stall and that first one; in POLL at least
the 14 edges of a whole record besides the stalls (R138). -/
inductive RecordEdges (s u : State) (l : List Instr) : Prop
  | start (hu : u = s) (hl : l = [])
  | emit (hp : u.phase = .emit) (hl : 1 + u.idx + l.count .txStall ≤ l.length)
  | poll (hp : u.phase = .poll) (hl : 14 + l.count .txStall ≤ l.length)

theorem RecordEdges.edge (h : RecordEdges s u l) (hs : s.selected = some .pollEdge) (hi : EdgePerforms u i v)
    (hne : i ≠ .reset) : RecordEdges s v (l ++ [i]) := by
  obtain ⟨-, -, -, hphase, hidx, -⟩ := State.fields_of_regs hi.regs
  have hc := hi.condition
  cases h with
  | start hu hl =>
    subst hu hl
    obtain rfl : i = .pollEdge := Option.some.inj (hi.selected.symm.trans hs)
    exact .emit hphase (by simp [hidx, State.regsAfter])
  | emit hp hl =>
    cases i with
    | reset => exact absurd rfl hne
    | txStall => exact .emit (hphase.trans hp) (by simp [hidx, State.regsAfter]; omega)
    | emitSend => exact .emit (hphase.trans hp) (by simp [hidx, State.regsAfter]; omega)
    | emitLast =>
      obtain ⟨-, -, -, hx⟩ := hc
      exact .poll hphase (by simp; omega)
    | _ =>
      obtain ⟨-, hp', -⟩ := hc
      simp [hp] at hp'
  | poll hp hl =>
    cases i with
    | reset => exact absurd rfl hne
    | pollIdle => exact .poll (hphase.trans hp) (by simp; omega)
    | pollEdge => exact .emit hphase (by simp [hidx, State.regsAfter]; omega)
    | _ =>
      obtain ⟨-, hp', -⟩ := hc
      simp [hp] at hp'

/-- Settles O57: at the second POLL_EDGE the machine stands in POLL, some edges after the first. -/
theorem detectedEdgesAreFourteenApart : Obligations.DetectedEdgesAreFourteenApart := by
  intro n s t hn hs h hl ht
  have hinv : RecordEdges s t (performed n s) :=
    run_performs_induction h (.start rfl rfl) fun hP hi hmem => hP.edge hs hi (ne_reset_of_mem hl hmem)
  obtain ⟨-, htp, -⟩ := selected_eq_some_iff.mp ht
  have hlen := performed_length n s
  cases hinv with
  | start _ h0 =>
    rw [h0, List.length_nil] at hlen
    exact absurd hlen hn.ne
  | emit hp _ => simp [hp] at htp
  | poll _ hbound => rwa [hlen] at hbound

/-- Until the first POLL_EDGE after a reset, `prev`, `pol` and `ctr` are as at reset and no record has begun (R142). -/
structure NothingDetected (s u : State) : Prop where
  prev : u.prev = s.params.prevInit
  pol : u.pol = true
  ctr : u.ctr = Counter.zero
  phase : u.phase ≠ .emit

theorem nothingDetected_of_reset (hreset : s.regs = Regs.atReset s.params) : NothingDetected s s := by
  obtain ⟨hprev, hpol, hctr, hphase, -⟩ := State.fields_of_regs hreset
  exact ⟨hprev, hpol, hctr, by simp [hphase, Regs.atReset]⟩

theorem NothingDetected.edge (h : NothingDetected s u) (hi : EdgePerforms u i v) (hne : i ≠ .reset)
    (hne' : i ≠ .pollEdge) : NothingDetected s v := by
  obtain ⟨hprev, hpol, hctr, hphase⟩ := h
  obtain ⟨hvprev, hvpol, hvctr, hvphase, -⟩ := State.fields_of_regs hi.regs
  have hc := hi.condition
  cases i with
  | reset => exact absurd rfl hne
  | pollEdge => exact absurd rfl hne'
  | emitSend =>
    obtain ⟨-, hp, -⟩ := hc
    exact absurd hp hphase
  | emitLast =>
    obtain ⟨-, hp, -⟩ := hc
    exact absurd hp hphase
  | delayDone | bannerLast =>
    exact ⟨hvprev.trans hprev, hvpol.trans hpol, hvctr.trans hctr, by simp [hvphase, State.regsAfter]⟩
  | _ => exact ⟨hvprev.trans hprev, hvpol.trans hpol, hvctr.trans hctr, hvphase ▸ hphase⟩

/-- Settles O58: the invariant `NothingDetected` at the POLL step, which compares the sample with `prev`. -/
theorem firstPollComparesWithPrevInit : Obligations.FirstPollComparesWithPrevInit := by
  intro n s t hreset h hl hl' hp hr
  obtain ⟨hprev, hpol, hctr, -⟩ : NothingDetected s t :=
    run_performs_induction (P := fun u _ => NothingDetected s u) h (nothingDetected_of_reset hreset)
      fun hP hi hmem => hP.edge hi (ne_reset_of_mem hl hmem) fun h => hl' (h ▸ hmem)
  refine ⟨?_, hpol, hctr⟩
  rw [selected_eq_some_iff, ← hprev]
  exact ⟨fun ⟨_, _, hs⟩ => hs, fun hs => ⟨hr, hp, hs⟩⟩

end Sys2Proof.Machine
end
